-- ==== Sys2Proof/Word.lean ====
section
/-! DEFINITION. The two widths of the core: bytes and 16-bit words (00_scope.md R4, XLEN8 and XLEN16).
Arithmetic on both is `BitVec` arithmetic, that is modulo 256 and modulo 65536 (R7). -/

namespace Sys2Proof

/-- A u8: register contents, a memory cell, a port number, a port value. -/
abbrev Byte := BitVec 8

/-- A u16: SP, PC, the index registers, a register pair, an address. -/
abbrev Word := BitVec 16

end Sys2Proof
end

