-- ==== Sys2Proof/Machine/Flags.lean ====
section
/-! DEFINITION. The flag ALU: the named bits of F and every computation of them (10_state.md R17 to R21,
43_alu8.md R121 to R124, 44_alu16.md R140). Each function takes the old F, so that the bits it does not
name keep their values (R19). -/

namespace Sys2Proof.Machine

/-- "six named boolean flags" (10_state.md R17). -/
inductive Flag where
  | s | z | h | pv | n | c
  deriving DecidableEq, Repr

/-- The position of a flag in F (10_state.md R18). -/
def Flag.bit : Flag → Nat
  | .s => 7
  | .z => 6
  | .h => 4
  | .pv => 2
  | .n => 1
  | .c => 0

/-- `flag_test(name)` (R19). -/
def flagTest (x : Flag) (f : Byte) : Bool := f.getLsbD x.bit

/-- `flag_set(name, bool)`: the other seven bits stay (R19). -/
def flagSet (x : Flag) (v : Bool) (f : Byte) : Byte :=
  if v then f ||| (1#8 <<< x.bit) else f &&& ~~~(1#8 <<< x.bit)

/-- The number of 1 bits (00_scope.md R5). -/
def popcount (v : Byte) : Nat :=
  (v.getLsbD 0).toNat + (v.getLsbD 1).toNat + (v.getLsbD 2).toNat + (v.getLsbD 3).toNat +
  (v.getLsbD 4).toNat + (v.getLsbD 5).toNat + (v.getLsbD 6).toNat + (v.getLsbD 7).toNat

/-- `parity_even(v)` (43_alu8.md R123). -/
def parityEven (v : Byte) : Bool := popcount v % 2 == 0

/-- `set_logic_flags(res)` (43_alu8.md R121). -/
def logicFlags (res f : Byte) : Byte :=
  flagSet .c false <| flagSet .n false <| flagSet .pv (parityEven res) <|
  flagSet .h false <| flagSet .z (res == 0) <| flagSet .s (res.getLsbD 7) f

/-- `overflow_sub(a, b, res)`: the sign comparison of 43_alu8.md R124. -/
def overflowSub (a b res : Byte) : Bool :=
  (a.getLsbD 7 != b.getLsbD 7) && (res.getLsbD 7 != a.getLsbD 7)

/-- `d <- a - b - cin` as an integer (43_alu8.md R122). -/
def subDiff (a b : Byte) (cin : Bool) : Int := (a.toNat : Int) - b.toNat - cin.toNat

/-- `res <- d mod 256` (43_alu8.md R122). -/
def subResult (a b : Byte) (cin : Bool) : Byte := BitVec.ofInt 8 (subDiff a b cin)

/-- `subc_flags(a, b, cin)`: the flags of the discarded difference (43_alu8.md R122). -/
def subcFlags (a b : Byte) (cin : Bool) (f : Byte) : Byte :=
  let d := subDiff a b cin
  let res := subResult a b cin
  let low : Int := ((a.toNat % 16 : Nat) : Int) - (b.toNat % 16 : Nat) - cin.toNat
  flagSet .c (decide (d < 0)) <| flagSet .n true <| flagSet .pv (overflowSub a b res) <|
  flagSet .h (decide (low < 0)) <| flagSet .z (res == 0) <| flagSet .s (res.getLsbD 7) f

/-- The flags of ADD HL,ss: carry out of bit 11, carry out of bit 15, N cleared (44_alu16.md R140). -/
def add16Flags (a b : Word) (f : Byte) : Byte :=
  flagSet .n false <| flagSet .c (decide (a.toNat + b.toNat > 0xFFFF)) <|
  flagSet .h (decide (a.toNat % 4096 + b.toNat % 4096 > 0x0FFF)) f

end Sys2Proof.Machine
end

