-- ==== Sys2Proof/Config.lean ====
section
/-! DEFINITION. The parameters of 00_scope.md R4 that are fixed for one machine. The bounds of the
memory map and the diagnostic port stand at the spec's defaults (log entry 9). `CART` is data of the
state (log entry 3). `RAM_INIT` is open in the spec: it is a free value here (log entry 2). -/

namespace Sys2Proof.Config

/-- Lowest address of the cartridge window (R51). The image is read by absolute address, so it is 0 (D25). -/
def romLo : Nat := 0x0000

/-- Highest address of the cartridge window (R51). -/
def romHi : Nat := 0xBFFF

/-- Lowest address of the RAM window (R51). -/
def ramLo : Nat := 0xC000

/-- Highest address of the RAM window (R51). -/
def ramHi : Nat := 0xDFFF

/-- The port whose writes reach the console sink (20_memory.md R58, 90_conflicts.md C1). -/
def diagPort : Byte := 0xFD#8

/-- The extended-prefix byte (30_encoding.md R65). -/
def prefixEd : Byte := 0xED#8

/-- `RAM_INIT`: the byte a RAM address holds before the first write to it (20_memory.md R53, R202, D12).
DESIGN CHOICE, safe (log entry 2): the spec leaves it open, so nothing is known of its values. -/
opaque ramInit : Nat → Byte

end Sys2Proof.Config
end

