-- ==== Sys2Proof/Machine/Bits.lean ====
section
/-! DEFINITION. Byte order and sign extension, said once (00_scope.md R5, 20_memory.md R44). -/

namespace Sys2Proof.Machine

/-- `v[15:8]`. -/
def hiByte (w : Word) : Byte := w.extractLsb' 8 8

/-- `v[7:0]`. -/
def loByte (w : Word) : Byte := w.extractLsb' 0 8

/-- `hi ++ lo`: the first byte is the high one (10_state.md R12). -/
def joinBytes (hi lo : Byte) : Word := hi ++ lo

/-- `sext_16(e)` (00_scope.md R5). -/
def sext16 (e : Byte) : Word := e.signExtend 16

/-- `zext_16(n)` (00_scope.md R5). -/
def zext16 (n : Byte) : Word := n.zeroExtend 16

end Sys2Proof.Machine
end

