-- ==== Sys2Proof/Syntax.lean ====
section
/-! DEFINITION. The instructions (one constructor per row of opcode_table.json, in the table's order),
the names their operands are built from, and names for whole families of instructions.
Constructors are named after the Zilog spelling of the row, `At` standing for the parentheses of a
memory or port operand: `ldAAtHl` is LD A,(HL). -/

namespace Sys2Proof

/-- The 8-bit register selectors "{A,B,C,D,E,H,L}" (10_state.md R11). F is not one of them. -/
inductive Reg8 where
  | b | c | d | e | h | l | a
  deriving DecidableEq, Repr

/-- The 16-bit selectors "{AF,BC,DE,HL,SP}" (30_encoding.md R62, R71). -/
inductive Reg16 where
  | af | bc | de | hl | sp
  deriving DecidableEq, Repr

/-- The pairs of LD dd,nn; ADD HL,ss; INC ss; DEC ss (30_encoding.md R62, columns `dd`/`ss`). -/
inductive PairDd where
  | bc | de | hl | sp
  deriving DecidableEq, Repr

/-- The pairs of PUSH and POP (30_encoding.md R62, column `qq`). -/
inductive PairQq where
  | bc | de | hl | af
  deriving DecidableEq, Repr

/-- Conditions (45_control.md R150). -/
inductive Cond where
  | always | nz | z | nc | c | po | pe | p | m
  deriving DecidableEq, Repr

/-- The five conditions JR accepts (45_control.md R150). -/
inductive JrCond where
  | always | nz | z | nc | c
  deriving DecidableEq, Repr

/-- The interrupt-mode selector "(0, 1, or 2)" (10_state.md R24; three values, log entry 8). -/
inductive IntMode where
  | im0 | im1 | im2
  deriving DecidableEq, Repr

/-- The two logical operations of 43_alu8.md R120. -/
inductive LogicOp where
  | xor | or
  deriving DecidableEq, Repr

/-- The operand forms of XOR, OR and CP (43_alu8.md): a register, (HL), an immediate. -/
inductive AluSrc where
  | reg (r : Reg8)
  | atHl
  | imm (n : Byte)
  deriving DecidableEq, Repr

def PairDd.reg16 : PairDd → Reg16
  | .bc => .bc
  | .de => .de
  | .hl => .hl
  | .sp => .sp

def PairQq.reg16 : PairQq → Reg16
  | .bc => .bc
  | .de => .de
  | .hl => .hl
  | .af => .af

def JrCond.cond : JrCond → Cond
  | .always => .always
  | .nz => .nz
  | .z => .z
  | .nc => .nc
  | .c => .c

/-- The 168 admitted instructions (30_encoding.md R70). `n` is an 8-bit immediate or port number,
`e` a displacement, `nn` a 16-bit immediate or address (R60). -/
inductive Instr where
  | ldBcNn (nn : Word)
  | ldAtBcA
  | incBc
  | ldBN (n : Byte)
  | addHlBc
  | ldAAtBc
  | decBc
  | ldCN (n : Byte)
  | ldDeNn (nn : Word)
  | ldAtDeA
  | incDe
  | ldDN (n : Byte)
  | jrE (e : Byte)
  | addHlDe
  | ldAAtDe
  | decDe
  | ldEN (n : Byte)
  | jrNzE (e : Byte)
  | ldHlNn (nn : Word)
  | incHl
  | ldHN (n : Byte)
  | jrZE (e : Byte)
  | addHlHl
  | decHl
  | ldLN (n : Byte)
  | jrNcE (e : Byte)
  | ldSpNn (nn : Word)
  | ldAtNnA (nn : Word)
  | incSp
  | ldAtHlN (n : Byte)
  | jrCE (e : Byte)
  | addHlSp
  | ldAAtNn (nn : Word)
  | decSp
  | ldAN (n : Byte)
  | ldBB
  | ldBC
  | ldBD
  | ldBE
  | ldBH
  | ldBL
  | ldBAtHl
  | ldBA
  | ldCB
  | ldCC
  | ldCD
  | ldCE
  | ldCH
  | ldCL
  | ldCAtHl
  | ldCA
  | ldDB
  | ldDC
  | ldDD
  | ldDE
  | ldDH
  | ldDL
  | ldDAtHl
  | ldDA
  | ldEB
  | ldEC
  | ldED
  | ldEE
  | ldEH
  | ldEL
  | ldEAtHl
  | ldEA
  | ldHB
  | ldHC
  | ldHD
  | ldHE
  | ldHH
  | ldHL
  | ldHAtHl
  | ldHA
  | ldLB
  | ldLC
  | ldLD
  | ldLE
  | ldLH
  | ldLL
  | ldLAtHl
  | ldLA
  | ldAtHlB
  | ldAtHlC
  | ldAtHlD
  | ldAtHlE
  | ldAtHlH
  | ldAtHlL
  | ldAtHlA
  | ldAB
  | ldAC
  | ldAD
  | ldAE
  | ldAH
  | ldAL
  | ldAAtHl
  | ldAA
  | xorB
  | xorC
  | xorD
  | xorE
  | xorH
  | xorL
  | xorAtHl
  | xorA
  | orB
  | orC
  | orD
  | orE
  | orH
  | orL
  | orAtHl
  | orA
  | cpB
  | cpC
  | cpD
  | cpE
  | cpH
  | cpL
  | cpAtHl
  | cpA
  | popBc
  | jpNzNn (nn : Word)
  | jpNn (nn : Word)
  | callNzNn (nn : Word)
  | pushBc
  | ret
  | jpZNn (nn : Word)
  | callZNn (nn : Word)
  | callNn (nn : Word)
  | popDe
  | jpNcNn (nn : Word)
  | outAtNA (n : Byte)
  | callNcNn (nn : Word)
  | pushDe
  | jpCNn (nn : Word)
  | callCNn (nn : Word)
  | popHl
  | jpPoNn (nn : Word)
  | callPoNn (nn : Word)
  | pushHl
  | jpAtHl
  | jpPeNn (nn : Word)
  | callPeNn (nn : Word)
  | xorN (n : Byte)
  | popAf
  | jpPNn (nn : Word)
  | di
  | callPNn (nn : Word)
  | pushAf
  | orN (n : Byte)
  | ldSpHl
  | jpMNn (nn : Word)
  | callMNn (nn : Word)
  | cpN (n : Byte)
  | outAtCB
  | im0
  | outAtCC
  | outAtCD
  | im1
  | outAtCE
  | im2
  | outAtCH
  | outAtCL
  | outAtCA
  | ldi
  | ldir
  deriving DecidableEq, Repr

namespace Instr

/-- LD r,r' (40_load8.md R80). -/
def ldReg : Reg8 → Reg8 → Instr
  | .b, .b => .ldBB
  | .b, .c => .ldBC
  | .b, .d => .ldBD
  | .b, .e => .ldBE
  | .b, .h => .ldBH
  | .b, .l => .ldBL
  | .b, .a => .ldBA
  | .c, .b => .ldCB
  | .c, .c => .ldCC
  | .c, .d => .ldCD
  | .c, .e => .ldCE
  | .c, .h => .ldCH
  | .c, .l => .ldCL
  | .c, .a => .ldCA
  | .d, .b => .ldDB
  | .d, .c => .ldDC
  | .d, .d => .ldDD
  | .d, .e => .ldDE
  | .d, .h => .ldDH
  | .d, .l => .ldDL
  | .d, .a => .ldDA
  | .e, .b => .ldEB
  | .e, .c => .ldEC
  | .e, .d => .ldED
  | .e, .e => .ldEE
  | .e, .h => .ldEH
  | .e, .l => .ldEL
  | .e, .a => .ldEA
  | .h, .b => .ldHB
  | .h, .c => .ldHC
  | .h, .d => .ldHD
  | .h, .e => .ldHE
  | .h, .h => .ldHH
  | .h, .l => .ldHL
  | .h, .a => .ldHA
  | .l, .b => .ldLB
  | .l, .c => .ldLC
  | .l, .d => .ldLD
  | .l, .e => .ldLE
  | .l, .h => .ldLH
  | .l, .l => .ldLL
  | .l, .a => .ldLA
  | .a, .b => .ldAB
  | .a, .c => .ldAC
  | .a, .d => .ldAD
  | .a, .e => .ldAE
  | .a, .h => .ldAH
  | .a, .l => .ldAL
  | .a, .a => .ldAA

/-- LD r,(HL) (40_load8.md R81). -/
def ldFromHl : Reg8 → Instr
  | .b => .ldBAtHl
  | .c => .ldCAtHl
  | .d => .ldDAtHl
  | .e => .ldEAtHl
  | .h => .ldHAtHl
  | .l => .ldLAtHl
  | .a => .ldAAtHl

/-- LD (HL),r (40_load8.md R82). -/
def ldToHl : Reg8 → Instr
  | .b => .ldAtHlB
  | .c => .ldAtHlC
  | .d => .ldAtHlD
  | .e => .ldAtHlE
  | .h => .ldAtHlH
  | .l => .ldAtHlL
  | .a => .ldAtHlA

/-- LD r,n (40_load8.md R83). -/
def ldImm : Reg8 → Byte → Instr
  | .b, n => .ldBN n
  | .c, n => .ldCN n
  | .d, n => .ldDN n
  | .e, n => .ldEN n
  | .h, n => .ldHN n
  | .l, n => .ldLN n
  | .a, n => .ldAN n

/-- LD dd,nn (41_load16_stack.md R100). -/
def ldPair : PairDd → Word → Instr
  | .bc, nn => .ldBcNn nn
  | .de, nn => .ldDeNn nn
  | .hl, nn => .ldHlNn nn
  | .sp, nn => .ldSpNn nn

/-- PUSH qq (41_load16_stack.md R104). -/
def push : PairQq → Instr
  | .bc => .pushBc
  | .de => .pushDe
  | .hl => .pushHl
  | .af => .pushAf

/-- POP qq (41_load16_stack.md R105). -/
def pop : PairQq → Instr
  | .bc => .popBc
  | .de => .popDe
  | .hl => .popHl
  | .af => .popAf

/-- XOR s for the three operand forms (43_alu8.md R125 to R127). -/
def xorS : AluSrc → Instr
  | .reg .b => .xorB
  | .reg .c => .xorC
  | .reg .d => .xorD
  | .reg .e => .xorE
  | .reg .h => .xorH
  | .reg .l => .xorL
  | .reg .a => .xorA
  | .atHl => .xorAtHl
  | .imm n => .xorN n

/-- OR s for the three operand forms (43_alu8.md R128 to R130). -/
def orS : AluSrc → Instr
  | .reg .b => .orB
  | .reg .c => .orC
  | .reg .d => .orD
  | .reg .e => .orE
  | .reg .h => .orH
  | .reg .l => .orL
  | .reg .a => .orA
  | .atHl => .orAtHl
  | .imm n => .orN n

/-- CP s for the three operand forms (43_alu8.md R131 to R133). -/
def cpS : AluSrc → Instr
  | .reg .b => .cpB
  | .reg .c => .cpC
  | .reg .d => .cpD
  | .reg .e => .cpE
  | .reg .h => .cpH
  | .reg .l => .cpL
  | .reg .a => .cpA
  | .atHl => .cpAtHl
  | .imm n => .cpN n

/-- XOR s or OR s. -/
def logic : LogicOp → AluSrc → Instr
  | .xor => xorS
  | .or => orS

/-- ADD HL,ss (44_alu16.md R140). -/
def addHl : PairDd → Instr
  | .bc => .addHlBc
  | .de => .addHlDe
  | .hl => .addHlHl
  | .sp => .addHlSp

/-- INC ss (44_alu16.md R141). -/
def incPair : PairDd → Instr
  | .bc => .incBc
  | .de => .incDe
  | .hl => .incHl
  | .sp => .incSp

/-- DEC ss (44_alu16.md R142). -/
def decPair : PairDd → Instr
  | .bc => .decBc
  | .de => .decDe
  | .hl => .decHl
  | .sp => .decSp

/-- JP nn and JP cc,nn (45_control.md R153, R154). -/
def jp : Cond → Word → Instr
  | .always, nn => .jpNn nn
  | .nz, nn => .jpNzNn nn
  | .z, nn => .jpZNn nn
  | .nc, nn => .jpNcNn nn
  | .c, nn => .jpCNn nn
  | .po, nn => .jpPoNn nn
  | .pe, nn => .jpPeNn nn
  | .p, nn => .jpPNn nn
  | .m, nn => .jpMNn nn

/-- JR e and JR cc,e (45_control.md R156, R157). -/
def jr : JrCond → Byte → Instr
  | .always, e => .jrE e
  | .nz, e => .jrNzE e
  | .z, e => .jrZE e
  | .nc, e => .jrNcE e
  | .c, e => .jrCE e

/-- CALL nn and CALL cc,nn (45_control.md R158, R159). -/
def call : Cond → Word → Instr
  | .always, nn => .callNn nn
  | .nz, nn => .callNzNn nn
  | .z, nn => .callZNn nn
  | .nc, nn => .callNcNn nn
  | .c, nn => .callCNn nn
  | .po, nn => .callPoNn nn
  | .pe, nn => .callPeNn nn
  | .p, nn => .callPNn nn
  | .m, nn => .callMNn nn

/-- IM 0, IM 1, IM 2 (46_system_io.md R171). -/
def im : IntMode → Instr
  | .im0 => .im0
  | .im1 => .im1
  | .im2 => .im2

/-- OUT (C),r (46_system_io.md R173). -/
def outToC : Reg8 → Instr
  | .b => .outAtCB
  | .c => .outAtCC
  | .d => .outAtCD
  | .e => .outAtCE
  | .h => .outAtCH
  | .l => .outAtCL
  | .a => .outAtCA

end Instr

end Sys2Proof
end

