-- ==== Sys2Proof/Machine/Descriptors.lean ====
section
/-! DEFINITION. The operand descriptors as the decode tables hold them, "stateless, copyable tags"
(30_encoding.md R71), and what each table entry is: an operation with its descriptors (R65, R68). A
descriptor that stands for instruction bytes (`imm`, `direct`, `zeroPage`) holds no value: the value
is fetched when the operation asks for it. Machine/Visit.lean runs entries of this form. -/

namespace Sys2Proof

/-- `Addr(m)`: "resolves to an address" (R71). -/
inductive AddrDesc where
  | direct
  | zeroPage
  | ind (p : Reg16)
  deriving DecidableEq, Repr

/-- The descriptors that are "readable as 8-bit" (R71). -/
inductive SrcDesc where
  | reg (r : Reg8)
  | imm
  | addr (m : AddrDesc)
  deriving DecidableEq, Repr

/-- The descriptors that are "writable as 8-bit" (R71). -/
inductive DstDesc where
  | reg (r : Reg8)
  | addr (m : AddrDesc)
  deriving DecidableEq, Repr

/-- The descriptors that are "readable as 16-bit" (R71). -/
inductive Src16Desc where
  | pair (p : Reg16)
  | imm
  deriving DecidableEq, Repr

/-- `Port(ImmPort)` and `Port(IndC)` (R71, R75). -/
inductive PortDesc where
  | imm
  | indC
  deriving DecidableEq, Repr

/-- "a fully-specified operation invocation with concrete operand descriptors" (R65): the operations
of files 40 to 46 applied to descriptors. -/
inductive Invocation where
  | load8 (dst : DstDesc) (src : SrcDesc)
  | load16 (dst : Reg16) (src : Src16Desc)
  | push (src : Reg16)
  | pop (dst : Reg16)
  | ldi
  | ldir
  | logic8 (op : LogicOp) (src : SrcDesc)
  | compare8 (src : SrcDesc)
  | add16 (dst src : Reg16)
  | inc16 (p : Reg16)
  | dec16 (p : Reg16)
  | jump (cc : Cond) (target : AddrDesc)
  | jr (cc : Cond)
  | call (cc : Cond) (target : AddrDesc)
  | ret
  | di
  | im (m : IntMode)
  | out (port : PortDesc) (src : SrcDesc)
  deriving DecidableEq, Repr

/-- The operation and the descriptors of each table entry, as opcode_table.json gives them for its row. -/
def Instr.invocation : Instr → Invocation
  | .ldBcNn _ => .load16 .bc .imm
  | .ldAtBcA => .load8 (.addr (.ind .bc)) (.reg .a)
  | .incBc => .inc16 .bc
  | .ldBN _ => .load8 (.reg .b) .imm
  | .addHlBc => .add16 .hl .bc
  | .ldAAtBc => .load8 (.reg .a) (.addr (.ind .bc))
  | .decBc => .dec16 .bc
  | .ldCN _ => .load8 (.reg .c) .imm
  | .ldDeNn _ => .load16 .de .imm
  | .ldAtDeA => .load8 (.addr (.ind .de)) (.reg .a)
  | .incDe => .inc16 .de
  | .ldDN _ => .load8 (.reg .d) .imm
  | .jrE _ => .jr .always
  | .addHlDe => .add16 .hl .de
  | .ldAAtDe => .load8 (.reg .a) (.addr (.ind .de))
  | .decDe => .dec16 .de
  | .ldEN _ => .load8 (.reg .e) .imm
  | .jrNzE _ => .jr .nz
  | .ldHlNn _ => .load16 .hl .imm
  | .incHl => .inc16 .hl
  | .ldHN _ => .load8 (.reg .h) .imm
  | .jrZE _ => .jr .z
  | .addHlHl => .add16 .hl .hl
  | .decHl => .dec16 .hl
  | .ldLN _ => .load8 (.reg .l) .imm
  | .jrNcE _ => .jr .nc
  | .ldSpNn _ => .load16 .sp .imm
  | .ldAtNnA _ => .load8 (.addr .direct) (.reg .a)
  | .incSp => .inc16 .sp
  | .ldAtHlN _ => .load8 (.addr (.ind .hl)) .imm
  | .jrCE _ => .jr .c
  | .addHlSp => .add16 .hl .sp
  | .ldAAtNn _ => .load8 (.reg .a) (.addr .direct)
  | .decSp => .dec16 .sp
  | .ldAN _ => .load8 (.reg .a) .imm
  | .ldBB => .load8 (.reg .b) (.reg .b)
  | .ldBC => .load8 (.reg .b) (.reg .c)
  | .ldBD => .load8 (.reg .b) (.reg .d)
  | .ldBE => .load8 (.reg .b) (.reg .e)
  | .ldBH => .load8 (.reg .b) (.reg .h)
  | .ldBL => .load8 (.reg .b) (.reg .l)
  | .ldBAtHl => .load8 (.reg .b) (.addr (.ind .hl))
  | .ldBA => .load8 (.reg .b) (.reg .a)
  | .ldCB => .load8 (.reg .c) (.reg .b)
  | .ldCC => .load8 (.reg .c) (.reg .c)
  | .ldCD => .load8 (.reg .c) (.reg .d)
  | .ldCE => .load8 (.reg .c) (.reg .e)
  | .ldCH => .load8 (.reg .c) (.reg .h)
  | .ldCL => .load8 (.reg .c) (.reg .l)
  | .ldCAtHl => .load8 (.reg .c) (.addr (.ind .hl))
  | .ldCA => .load8 (.reg .c) (.reg .a)
  | .ldDB => .load8 (.reg .d) (.reg .b)
  | .ldDC => .load8 (.reg .d) (.reg .c)
  | .ldDD => .load8 (.reg .d) (.reg .d)
  | .ldDE => .load8 (.reg .d) (.reg .e)
  | .ldDH => .load8 (.reg .d) (.reg .h)
  | .ldDL => .load8 (.reg .d) (.reg .l)
  | .ldDAtHl => .load8 (.reg .d) (.addr (.ind .hl))
  | .ldDA => .load8 (.reg .d) (.reg .a)
  | .ldEB => .load8 (.reg .e) (.reg .b)
  | .ldEC => .load8 (.reg .e) (.reg .c)
  | .ldED => .load8 (.reg .e) (.reg .d)
  | .ldEE => .load8 (.reg .e) (.reg .e)
  | .ldEH => .load8 (.reg .e) (.reg .h)
  | .ldEL => .load8 (.reg .e) (.reg .l)
  | .ldEAtHl => .load8 (.reg .e) (.addr (.ind .hl))
  | .ldEA => .load8 (.reg .e) (.reg .a)
  | .ldHB => .load8 (.reg .h) (.reg .b)
  | .ldHC => .load8 (.reg .h) (.reg .c)
  | .ldHD => .load8 (.reg .h) (.reg .d)
  | .ldHE => .load8 (.reg .h) (.reg .e)
  | .ldHH => .load8 (.reg .h) (.reg .h)
  | .ldHL => .load8 (.reg .h) (.reg .l)
  | .ldHAtHl => .load8 (.reg .h) (.addr (.ind .hl))
  | .ldHA => .load8 (.reg .h) (.reg .a)
  | .ldLB => .load8 (.reg .l) (.reg .b)
  | .ldLC => .load8 (.reg .l) (.reg .c)
  | .ldLD => .load8 (.reg .l) (.reg .d)
  | .ldLE => .load8 (.reg .l) (.reg .e)
  | .ldLH => .load8 (.reg .l) (.reg .h)
  | .ldLL => .load8 (.reg .l) (.reg .l)
  | .ldLAtHl => .load8 (.reg .l) (.addr (.ind .hl))
  | .ldLA => .load8 (.reg .l) (.reg .a)
  | .ldAtHlB => .load8 (.addr (.ind .hl)) (.reg .b)
  | .ldAtHlC => .load8 (.addr (.ind .hl)) (.reg .c)
  | .ldAtHlD => .load8 (.addr (.ind .hl)) (.reg .d)
  | .ldAtHlE => .load8 (.addr (.ind .hl)) (.reg .e)
  | .ldAtHlH => .load8 (.addr (.ind .hl)) (.reg .h)
  | .ldAtHlL => .load8 (.addr (.ind .hl)) (.reg .l)
  | .ldAtHlA => .load8 (.addr (.ind .hl)) (.reg .a)
  | .ldAB => .load8 (.reg .a) (.reg .b)
  | .ldAC => .load8 (.reg .a) (.reg .c)
  | .ldAD => .load8 (.reg .a) (.reg .d)
  | .ldAE => .load8 (.reg .a) (.reg .e)
  | .ldAH => .load8 (.reg .a) (.reg .h)
  | .ldAL => .load8 (.reg .a) (.reg .l)
  | .ldAAtHl => .load8 (.reg .a) (.addr (.ind .hl))
  | .ldAA => .load8 (.reg .a) (.reg .a)
  | .xorB => .logic8 .xor (.reg .b)
  | .xorC => .logic8 .xor (.reg .c)
  | .xorD => .logic8 .xor (.reg .d)
  | .xorE => .logic8 .xor (.reg .e)
  | .xorH => .logic8 .xor (.reg .h)
  | .xorL => .logic8 .xor (.reg .l)
  | .xorAtHl => .logic8 .xor (.addr (.ind .hl))
  | .xorA => .logic8 .xor (.reg .a)
  | .orB => .logic8 .or (.reg .b)
  | .orC => .logic8 .or (.reg .c)
  | .orD => .logic8 .or (.reg .d)
  | .orE => .logic8 .or (.reg .e)
  | .orH => .logic8 .or (.reg .h)
  | .orL => .logic8 .or (.reg .l)
  | .orAtHl => .logic8 .or (.addr (.ind .hl))
  | .orA => .logic8 .or (.reg .a)
  | .cpB => .compare8 (.reg .b)
  | .cpC => .compare8 (.reg .c)
  | .cpD => .compare8 (.reg .d)
  | .cpE => .compare8 (.reg .e)
  | .cpH => .compare8 (.reg .h)
  | .cpL => .compare8 (.reg .l)
  | .cpAtHl => .compare8 (.addr (.ind .hl))
  | .cpA => .compare8 (.reg .a)
  | .popBc => .pop .bc
  | .jpNzNn _ => .jump .nz .direct
  | .jpNn _ => .jump .always .direct
  | .callNzNn _ => .call .nz .direct
  | .pushBc => .push .bc
  | .ret => .ret
  | .jpZNn _ => .jump .z .direct
  | .callZNn _ => .call .z .direct
  | .callNn _ => .call .always .direct
  | .popDe => .pop .de
  | .jpNcNn _ => .jump .nc .direct
  | .outAtNA _ => .out .imm (.reg .a)
  | .callNcNn _ => .call .nc .direct
  | .pushDe => .push .de
  | .jpCNn _ => .jump .c .direct
  | .callCNn _ => .call .c .direct
  | .popHl => .pop .hl
  | .jpPoNn _ => .jump .po .direct
  | .callPoNn _ => .call .po .direct
  | .pushHl => .push .hl
  | .jpAtHl => .jump .always (.ind .hl)
  | .jpPeNn _ => .jump .pe .direct
  | .callPeNn _ => .call .pe .direct
  | .xorN _ => .logic8 .xor .imm
  | .popAf => .pop .af
  | .jpPNn _ => .jump .p .direct
  | .di => .di
  | .callPNn _ => .call .p .direct
  | .pushAf => .push .af
  | .orN _ => .logic8 .or .imm
  | .ldSpHl => .load16 .sp (.pair .hl)
  | .jpMNn _ => .jump .m .direct
  | .callMNn _ => .call .m .direct
  | .cpN _ => .compare8 .imm
  | .outAtCB => .out .indC (.reg .b)
  | .im0 => .im .im0
  | .outAtCC => .out .indC (.reg .c)
  | .outAtCD => .out .indC (.reg .d)
  | .im1 => .im .im1
  | .outAtCE => .out .indC (.reg .e)
  | .im2 => .im .im2
  | .outAtCH => .out .indC (.reg .h)
  | .outAtCL => .out .indC (.reg .l)
  | .outAtCA => .out .indC (.reg .a)
  | .ldi => .ldi
  | .ldir => .ldir

end Sys2Proof
end

