-- ==== Sys2Proof/WellFormed.lean ====
section
/-! DEFINITION. Which operation invocations the spec allows: every descriptor is used with a capability
and inside the set of values the spec gives it (30_encoding.md R62, R71 and the Operands lines of files
40 to 46). The types of Machine/Descriptors.lean already rule out writing to an immediate; what is left
is checked here. An instruction is well formed if its table entry is. -/

namespace Sys2Proof

/-- `Addr(Ind(p))` has p in {BC,DE,HL} (R71). -/
def AddrDesc.wf : AddrDesc → Bool
  | .direct => true
  | .zeroPage => true
  | .ind p => p == .bc || p == .de || p == .hl

def SrcDesc.wf : SrcDesc → Bool
  | .reg _ => true
  | .imm => true
  | .addr m => m.wf

def DstDesc.wf : DstDesc → Bool
  | .reg _ => true
  | .addr m => m.wf

/-- The pairs `dd` and `ss` (R62): AF is not among them. -/
def Reg16.isDd (p : Reg16) : Bool := p != .af

/-- The pairs `qq` (R62): "SP is not a pushable pair" (41_load16_stack.md R104). -/
def Reg16.isQq (p : Reg16) : Bool := p != .sp

/-- "JR accepts only Always, NZ, Z, NC, C" (45_control.md R150). -/
def Cond.jrAccepts : Cond → Bool
  | .always | .nz | .z | .nc | .c => true
  | .po | .pe | .p | .m => false

def Invocation.wf : Invocation → Bool
  | .load8 dst src => dst.wf && src.wf
  | .load16 dst _ => dst.isDd
  | .push src => src.isQq
  | .pop dst => dst.isQq
  | .ldi => true
  | .ldir => true
  | .logic8 _ src => src.wf
  | .compare8 src => src.wf
  | .add16 dst src => dst == .hl && src.isDd
  | .inc16 p => p.isDd
  | .dec16 p => p.isDd
  | .jump _ target => target.wf
  | .jr cc => cc.jrAccepts
  | .call _ target => target == .direct
  | .ret => true
  | .di => true
  | .im _ => true
  | .out _ src => src.wf

/-- The instruction's table entry is one the spec allows. -/
def Instr.WellFormed (i : Instr) : Bool := i.invocation.wf

end Sys2Proof
end

