-- ==== Sys2Proof/Decode.lean ====
section
/-! DEFINITION. The two decode tables (30_encoding.md R65 to R70), the decoder on a list of bytes, total
and rejecting by name, and the encoder. -/

namespace Sys2Proof

/-- "the table (primary or extended)" of a decode error (30_encoding.md R67). -/
inductive Table where
  | primary
  | extended
  deriving DecidableEq, Repr

/-- A table entry with the bytes its descriptors consume (R63): none, one, or two of them, low byte first. -/
inductive Entry where
  | plain (i : Instr)
  | imm8 (k : Byte → Instr)
  | imm16 (k : Word → Instr)

/-- Why a list of bytes is no instruction: an absent opcode value (R67), or the bytes end too early. -/
inductive DecodeError where
  | absent (table : Table) (opcode : Byte)
  | truncated
  deriving DecidableEq, Repr

/-- "each entry stands alone" (R68): the row of a byte value, if there is one. -/
def lookupRow : List (Byte × Entry) → Byte → Option Entry
  | [], _ => none
  | (b, e) :: rows, op => if b = op then some e else lookupRow rows op

/-- Row 0x of the primary map (R70). -/
def primaryRow0x : List (Byte × Entry) := [
  (0x01#8, .imm16 .ldBcNn),
  (0x02#8, .plain .ldAtBcA),
  (0x03#8, .plain .incBc),
  (0x06#8, .imm8 .ldBN),
  (0x09#8, .plain .addHlBc),
  (0x0A#8, .plain .ldAAtBc),
  (0x0B#8, .plain .decBc),
  (0x0E#8, .imm8 .ldCN)]

/-- Row 1x of the primary map (R70). -/
def primaryRow1x : List (Byte × Entry) := [
  (0x11#8, .imm16 .ldDeNn),
  (0x12#8, .plain .ldAtDeA),
  (0x13#8, .plain .incDe),
  (0x16#8, .imm8 .ldDN),
  (0x18#8, .imm8 .jrE),
  (0x19#8, .plain .addHlDe),
  (0x1A#8, .plain .ldAAtDe),
  (0x1B#8, .plain .decDe),
  (0x1E#8, .imm8 .ldEN)]

/-- Row 2x of the primary map (R70). -/
def primaryRow2x : List (Byte × Entry) := [
  (0x20#8, .imm8 .jrNzE),
  (0x21#8, .imm16 .ldHlNn),
  (0x23#8, .plain .incHl),
  (0x26#8, .imm8 .ldHN),
  (0x28#8, .imm8 .jrZE),
  (0x29#8, .plain .addHlHl),
  (0x2B#8, .plain .decHl),
  (0x2E#8, .imm8 .ldLN)]

/-- Row 3x of the primary map (R70). -/
def primaryRow3x : List (Byte × Entry) := [
  (0x30#8, .imm8 .jrNcE),
  (0x31#8, .imm16 .ldSpNn),
  (0x32#8, .imm16 .ldAtNnA),
  (0x33#8, .plain .incSp),
  (0x36#8, .imm8 .ldAtHlN),
  (0x38#8, .imm8 .jrCE),
  (0x39#8, .plain .addHlSp),
  (0x3A#8, .imm16 .ldAAtNn),
  (0x3B#8, .plain .decSp),
  (0x3E#8, .imm8 .ldAN)]

/-- Row 4x of the primary map (R70). -/
def primaryRow4x : List (Byte × Entry) := [
  (0x40#8, .plain .ldBB),
  (0x41#8, .plain .ldBC),
  (0x42#8, .plain .ldBD),
  (0x43#8, .plain .ldBE),
  (0x44#8, .plain .ldBH),
  (0x45#8, .plain .ldBL),
  (0x46#8, .plain .ldBAtHl),
  (0x47#8, .plain .ldBA),
  (0x48#8, .plain .ldCB),
  (0x49#8, .plain .ldCC),
  (0x4A#8, .plain .ldCD),
  (0x4B#8, .plain .ldCE),
  (0x4C#8, .plain .ldCH),
  (0x4D#8, .plain .ldCL),
  (0x4E#8, .plain .ldCAtHl),
  (0x4F#8, .plain .ldCA)]

/-- Row 5x of the primary map (R70). -/
def primaryRow5x : List (Byte × Entry) := [
  (0x50#8, .plain .ldDB),
  (0x51#8, .plain .ldDC),
  (0x52#8, .plain .ldDD),
  (0x53#8, .plain .ldDE),
  (0x54#8, .plain .ldDH),
  (0x55#8, .plain .ldDL),
  (0x56#8, .plain .ldDAtHl),
  (0x57#8, .plain .ldDA),
  (0x58#8, .plain .ldEB),
  (0x59#8, .plain .ldEC),
  (0x5A#8, .plain .ldED),
  (0x5B#8, .plain .ldEE),
  (0x5C#8, .plain .ldEH),
  (0x5D#8, .plain .ldEL),
  (0x5E#8, .plain .ldEAtHl),
  (0x5F#8, .plain .ldEA)]

/-- Row 6x of the primary map (R70). -/
def primaryRow6x : List (Byte × Entry) := [
  (0x60#8, .plain .ldHB),
  (0x61#8, .plain .ldHC),
  (0x62#8, .plain .ldHD),
  (0x63#8, .plain .ldHE),
  (0x64#8, .plain .ldHH),
  (0x65#8, .plain .ldHL),
  (0x66#8, .plain .ldHAtHl),
  (0x67#8, .plain .ldHA),
  (0x68#8, .plain .ldLB),
  (0x69#8, .plain .ldLC),
  (0x6A#8, .plain .ldLD),
  (0x6B#8, .plain .ldLE),
  (0x6C#8, .plain .ldLH),
  (0x6D#8, .plain .ldLL),
  (0x6E#8, .plain .ldLAtHl),
  (0x6F#8, .plain .ldLA)]

/-- Row 7x of the primary map (R70). -/
def primaryRow7x : List (Byte × Entry) := [
  (0x70#8, .plain .ldAtHlB),
  (0x71#8, .plain .ldAtHlC),
  (0x72#8, .plain .ldAtHlD),
  (0x73#8, .plain .ldAtHlE),
  (0x74#8, .plain .ldAtHlH),
  (0x75#8, .plain .ldAtHlL),
  (0x77#8, .plain .ldAtHlA),
  (0x78#8, .plain .ldAB),
  (0x79#8, .plain .ldAC),
  (0x7A#8, .plain .ldAD),
  (0x7B#8, .plain .ldAE),
  (0x7C#8, .plain .ldAH),
  (0x7D#8, .plain .ldAL),
  (0x7E#8, .plain .ldAAtHl),
  (0x7F#8, .plain .ldAA)]

/-- Row Ax of the primary map (R70). -/
def primaryRowAx : List (Byte × Entry) := [
  (0xA8#8, .plain .xorB),
  (0xA9#8, .plain .xorC),
  (0xAA#8, .plain .xorD),
  (0xAB#8, .plain .xorE),
  (0xAC#8, .plain .xorH),
  (0xAD#8, .plain .xorL),
  (0xAE#8, .plain .xorAtHl),
  (0xAF#8, .plain .xorA)]

/-- Row Bx of the primary map (R70). -/
def primaryRowBx : List (Byte × Entry) := [
  (0xB0#8, .plain .orB),
  (0xB1#8, .plain .orC),
  (0xB2#8, .plain .orD),
  (0xB3#8, .plain .orE),
  (0xB4#8, .plain .orH),
  (0xB5#8, .plain .orL),
  (0xB6#8, .plain .orAtHl),
  (0xB7#8, .plain .orA),
  (0xB8#8, .plain .cpB),
  (0xB9#8, .plain .cpC),
  (0xBA#8, .plain .cpD),
  (0xBB#8, .plain .cpE),
  (0xBC#8, .plain .cpH),
  (0xBD#8, .plain .cpL),
  (0xBE#8, .plain .cpAtHl),
  (0xBF#8, .plain .cpA)]

/-- Row Cx of the primary map (R70). -/
def primaryRowCx : List (Byte × Entry) := [
  (0xC1#8, .plain .popBc),
  (0xC2#8, .imm16 .jpNzNn),
  (0xC3#8, .imm16 .jpNn),
  (0xC4#8, .imm16 .callNzNn),
  (0xC5#8, .plain .pushBc),
  (0xC9#8, .plain .ret),
  (0xCA#8, .imm16 .jpZNn),
  (0xCC#8, .imm16 .callZNn),
  (0xCD#8, .imm16 .callNn)]

/-- Row Dx of the primary map (R70). -/
def primaryRowDx : List (Byte × Entry) := [
  (0xD1#8, .plain .popDe),
  (0xD2#8, .imm16 .jpNcNn),
  (0xD3#8, .imm8 .outAtNA),
  (0xD4#8, .imm16 .callNcNn),
  (0xD5#8, .plain .pushDe),
  (0xDA#8, .imm16 .jpCNn),
  (0xDC#8, .imm16 .callCNn)]

/-- Row Ex of the primary map (R70). -/
def primaryRowEx : List (Byte × Entry) := [
  (0xE1#8, .plain .popHl),
  (0xE2#8, .imm16 .jpPoNn),
  (0xE4#8, .imm16 .callPoNn),
  (0xE5#8, .plain .pushHl),
  (0xE9#8, .plain .jpAtHl),
  (0xEA#8, .imm16 .jpPeNn),
  (0xEC#8, .imm16 .callPeNn),
  (0xEE#8, .imm8 .xorN)]

/-- Row Fx of the primary map (R70). -/
def primaryRowFx : List (Byte × Entry) := [
  (0xF1#8, .plain .popAf),
  (0xF2#8, .imm16 .jpPNn),
  (0xF3#8, .plain .di),
  (0xF4#8, .imm16 .callPNn),
  (0xF5#8, .plain .pushAf),
  (0xF6#8, .imm8 .orN),
  (0xF9#8, .plain .ldSpHl),
  (0xFA#8, .imm16 .jpMNn),
  (0xFC#8, .imm16 .callMNn),
  (0xFE#8, .imm8 .cpN)]

/-- The rows of the primary table (R70): 156 entries; the prefix 0xED is not a row. -/
def primaryRows : List (Byte × Entry) :=
  primaryRow0x ++ primaryRow1x ++ primaryRow2x ++ primaryRow3x ++ primaryRow4x ++ primaryRow5x ++
  primaryRow6x ++ primaryRow7x ++ primaryRowAx ++ primaryRowBx ++ primaryRowCx ++ primaryRowDx ++ primaryRowEx ++ primaryRowFx

/-- The rows of the extended table (R70): the second byte after 0xED, 12 entries. -/
def extendedRows : List (Byte × Entry) := [
  (0x41#8, .plain .outAtCB),
  (0x46#8, .plain .im0),
  (0x49#8, .plain .outAtCC),
  (0x51#8, .plain .outAtCD),
  (0x56#8, .plain .im1),
  (0x59#8, .plain .outAtCE),
  (0x5E#8, .plain .im2),
  (0x61#8, .plain .outAtCH),
  (0x69#8, .plain .outAtCL),
  (0x79#8, .plain .outAtCA),
  (0xA0#8, .plain .ldi),
  (0xB0#8, .plain .ldir)]

/-- `TABLE_PRIMARY`: an entry or absent (R65, R68). -/
def primaryTable (op : Byte) : Option Entry := lookupRow primaryRows op

/-- `TABLE_EXTENDED`: an entry or absent (R66, R68). -/
def extendedTable (op : Byte) : Option Entry := lookupRow extendedRows op

/-- An entry applied to the bytes after its opcode: the immediates in ascending order, a 16-bit one
"low byte first" (R60, R64). -/
def decodeEntry (t : Table) (op : Byte) : Option Entry → List Byte → Except DecodeError (Instr × List Byte)
  | none, _ => .error (.absent t op)
  | some (.plain i), bs => .ok (i, bs)
  | some (.imm8 k), n :: bs => .ok (k n, bs)
  | some (.imm8 _), [] => .error .truncated
  | some (.imm16 k), lo :: hi :: bs => .ok (k (Machine.joinBytes hi lo), bs)
  | some (.imm16 _), _ => .error .truncated

/-- The instruction at the head of a list of bytes, and the bytes after it (R65, R66). -/
def decode : List Byte → Except DecodeError (Instr × List Byte)
  | [] => .error .truncated
  | op :: bs =>
    if op = Config.prefixEd then
      match bs with
      | [] => .error .truncated
      | op2 :: bs' => decodeEntry .extended op2 (extendedTable op2) bs'
    else decodeEntry .primary op (primaryTable op) bs

/-- `nn` as it stands in the instruction stream: low byte, high byte (R64). -/
def wordBytes (nn : Word) : List Byte := [Machine.loByte nn, Machine.hiByte nn]

/-- The bytes of an instruction at ascending addresses (R60, R70). -/
def encode : Instr → List Byte
  | .ldBcNn nn => 0x01#8 :: wordBytes nn
  | .ldAtBcA => [0x02#8]
  | .incBc => [0x03#8]
  | .ldBN n => [0x06#8, n]
  | .addHlBc => [0x09#8]
  | .ldAAtBc => [0x0A#8]
  | .decBc => [0x0B#8]
  | .ldCN n => [0x0E#8, n]
  | .ldDeNn nn => 0x11#8 :: wordBytes nn
  | .ldAtDeA => [0x12#8]
  | .incDe => [0x13#8]
  | .ldDN n => [0x16#8, n]
  | .jrE e => [0x18#8, e]
  | .addHlDe => [0x19#8]
  | .ldAAtDe => [0x1A#8]
  | .decDe => [0x1B#8]
  | .ldEN n => [0x1E#8, n]
  | .jrNzE e => [0x20#8, e]
  | .ldHlNn nn => 0x21#8 :: wordBytes nn
  | .incHl => [0x23#8]
  | .ldHN n => [0x26#8, n]
  | .jrZE e => [0x28#8, e]
  | .addHlHl => [0x29#8]
  | .decHl => [0x2B#8]
  | .ldLN n => [0x2E#8, n]
  | .jrNcE e => [0x30#8, e]
  | .ldSpNn nn => 0x31#8 :: wordBytes nn
  | .ldAtNnA nn => 0x32#8 :: wordBytes nn
  | .incSp => [0x33#8]
  | .ldAtHlN n => [0x36#8, n]
  | .jrCE e => [0x38#8, e]
  | .addHlSp => [0x39#8]
  | .ldAAtNn nn => 0x3A#8 :: wordBytes nn
  | .decSp => [0x3B#8]
  | .ldAN n => [0x3E#8, n]
  | .ldBB => [0x40#8]
  | .ldBC => [0x41#8]
  | .ldBD => [0x42#8]
  | .ldBE => [0x43#8]
  | .ldBH => [0x44#8]
  | .ldBL => [0x45#8]
  | .ldBAtHl => [0x46#8]
  | .ldBA => [0x47#8]
  | .ldCB => [0x48#8]
  | .ldCC => [0x49#8]
  | .ldCD => [0x4A#8]
  | .ldCE => [0x4B#8]
  | .ldCH => [0x4C#8]
  | .ldCL => [0x4D#8]
  | .ldCAtHl => [0x4E#8]
  | .ldCA => [0x4F#8]
  | .ldDB => [0x50#8]
  | .ldDC => [0x51#8]
  | .ldDD => [0x52#8]
  | .ldDE => [0x53#8]
  | .ldDH => [0x54#8]
  | .ldDL => [0x55#8]
  | .ldDAtHl => [0x56#8]
  | .ldDA => [0x57#8]
  | .ldEB => [0x58#8]
  | .ldEC => [0x59#8]
  | .ldED => [0x5A#8]
  | .ldEE => [0x5B#8]
  | .ldEH => [0x5C#8]
  | .ldEL => [0x5D#8]
  | .ldEAtHl => [0x5E#8]
  | .ldEA => [0x5F#8]
  | .ldHB => [0x60#8]
  | .ldHC => [0x61#8]
  | .ldHD => [0x62#8]
  | .ldHE => [0x63#8]
  | .ldHH => [0x64#8]
  | .ldHL => [0x65#8]
  | .ldHAtHl => [0x66#8]
  | .ldHA => [0x67#8]
  | .ldLB => [0x68#8]
  | .ldLC => [0x69#8]
  | .ldLD => [0x6A#8]
  | .ldLE => [0x6B#8]
  | .ldLH => [0x6C#8]
  | .ldLL => [0x6D#8]
  | .ldLAtHl => [0x6E#8]
  | .ldLA => [0x6F#8]
  | .ldAtHlB => [0x70#8]
  | .ldAtHlC => [0x71#8]
  | .ldAtHlD => [0x72#8]
  | .ldAtHlE => [0x73#8]
  | .ldAtHlH => [0x74#8]
  | .ldAtHlL => [0x75#8]
  | .ldAtHlA => [0x77#8]
  | .ldAB => [0x78#8]
  | .ldAC => [0x79#8]
  | .ldAD => [0x7A#8]
  | .ldAE => [0x7B#8]
  | .ldAH => [0x7C#8]
  | .ldAL => [0x7D#8]
  | .ldAAtHl => [0x7E#8]
  | .ldAA => [0x7F#8]
  | .xorB => [0xA8#8]
  | .xorC => [0xA9#8]
  | .xorD => [0xAA#8]
  | .xorE => [0xAB#8]
  | .xorH => [0xAC#8]
  | .xorL => [0xAD#8]
  | .xorAtHl => [0xAE#8]
  | .xorA => [0xAF#8]
  | .orB => [0xB0#8]
  | .orC => [0xB1#8]
  | .orD => [0xB2#8]
  | .orE => [0xB3#8]
  | .orH => [0xB4#8]
  | .orL => [0xB5#8]
  | .orAtHl => [0xB6#8]
  | .orA => [0xB7#8]
  | .cpB => [0xB8#8]
  | .cpC => [0xB9#8]
  | .cpD => [0xBA#8]
  | .cpE => [0xBB#8]
  | .cpH => [0xBC#8]
  | .cpL => [0xBD#8]
  | .cpAtHl => [0xBE#8]
  | .cpA => [0xBF#8]
  | .popBc => [0xC1#8]
  | .jpNzNn nn => 0xC2#8 :: wordBytes nn
  | .jpNn nn => 0xC3#8 :: wordBytes nn
  | .callNzNn nn => 0xC4#8 :: wordBytes nn
  | .pushBc => [0xC5#8]
  | .ret => [0xC9#8]
  | .jpZNn nn => 0xCA#8 :: wordBytes nn
  | .callZNn nn => 0xCC#8 :: wordBytes nn
  | .callNn nn => 0xCD#8 :: wordBytes nn
  | .popDe => [0xD1#8]
  | .jpNcNn nn => 0xD2#8 :: wordBytes nn
  | .outAtNA n => [0xD3#8, n]
  | .callNcNn nn => 0xD4#8 :: wordBytes nn
  | .pushDe => [0xD5#8]
  | .jpCNn nn => 0xDA#8 :: wordBytes nn
  | .callCNn nn => 0xDC#8 :: wordBytes nn
  | .popHl => [0xE1#8]
  | .jpPoNn nn => 0xE2#8 :: wordBytes nn
  | .callPoNn nn => 0xE4#8 :: wordBytes nn
  | .pushHl => [0xE5#8]
  | .jpAtHl => [0xE9#8]
  | .jpPeNn nn => 0xEA#8 :: wordBytes nn
  | .callPeNn nn => 0xEC#8 :: wordBytes nn
  | .xorN n => [0xEE#8, n]
  | .popAf => [0xF1#8]
  | .jpPNn nn => 0xF2#8 :: wordBytes nn
  | .di => [0xF3#8]
  | .callPNn nn => 0xF4#8 :: wordBytes nn
  | .pushAf => [0xF5#8]
  | .orN n => [0xF6#8, n]
  | .ldSpHl => [0xF9#8]
  | .jpMNn nn => 0xFA#8 :: wordBytes nn
  | .callMNn nn => 0xFC#8 :: wordBytes nn
  | .cpN n => [0xFE#8, n]
  | .outAtCB => [0xED#8, 0x41#8]
  | .im0 => [0xED#8, 0x46#8]
  | .outAtCC => [0xED#8, 0x49#8]
  | .outAtCD => [0xED#8, 0x51#8]
  | .im1 => [0xED#8, 0x56#8]
  | .outAtCE => [0xED#8, 0x59#8]
  | .im2 => [0xED#8, 0x5E#8]
  | .outAtCH => [0xED#8, 0x61#8]
  | .outAtCL => [0xED#8, 0x69#8]
  | .outAtCA => [0xED#8, 0x79#8]
  | .ldi => [0xED#8, 0xA0#8]
  | .ldir => [0xED#8, 0xB0#8]

/-- The three bytes, in the order they are stored, of an instruction whose bits opcode_table.json numbers
as `w`: bit 0 is the least significant bit of the first byte, and a later byte's bits count on from it.
The table's only rows of two bytes are those of the extended table, and it numbers them the other way
round: the prefix 0xED in bits 15..8, the extended opcode in bits 7..0 (98_reader.md; log entry 7). -/
def tableBytes (nbits w : Nat) : List Byte :=
  let v := w % 2 ^ nbits
  let b0 := BitVec.ofNat 8 v
  let b1 := BitVec.ofNat 8 (v / 256)
  let b2 := BitVec.ofNat 8 (v / 65536)
  if nbits = 16 ∧ b1 = Config.prefixEd ∧ b0 ≠ Config.prefixEd then [b1, b0, 0x00#8] else [b0, b1, b2]

/-- The instruction the decoder reads from a word of opcode_table.json; every bit above `nbits` is 0. -/
def decodeTableWord (nbits w : Nat) : Option Instr :=
  match decode (tableBytes nbits w) with
  | .ok (i, _) => some i
  | .error _ => none

end Sys2Proof
end

