-- ==== Sys2Proof/Machine/State.lean ====
section
/-! DEFINITION. The state of the machine: every element of 10_state.md section 1, the two memories behind
the Bus (20_memory.md R43, R53), and the sequence of port writes (R58, R189). -/

namespace Sys2Proof.Machine

/-- The access kind of a memory error (60_exceptions.md R181). -/
inductive AccessKind where
  | read
  | write
  deriving DecidableEq, Repr

/-- The two fatal errors of the core and the record each latches into FAULT (60_exceptions.md R181).
A step that raises one answers the next state with the record latched (`raise`, Machine/Ops.lean);
`step` answers `Outcome.fault` with the record at every later step request, which is how it says
"faulted" again (R183; log entry 1). Safe: nothing is lost, the retained state stands in the state. -/
inductive Fault where
  /-- An opcode value absent from its table (R180). Raised by the fetch of an instruction only. Safe. -/
  | decodeFault (table : Table) (opcode : Byte) (pc : Word)
  /-- An access the Bus cannot serve (R182). Raised by every kind of memory access, never by a port write. Safe. -/
  | busFault (addr : Word) (kind : AccessKind) (pc : Word)
  deriving DecidableEq, Repr

/-- What the model leaves without a meaning. No instruction of this model is refused. -/
inductive Refusal where
  /-- An arm of `exec` with no meaning yet would answer this. Safe. Raised by nothing. -/
  | notModelled (mnemonic : String)
  deriving DecidableEq, Repr

/-- The written bytes of RAM, as (address, byte) cells at strictly rising addresses (`Memory.wf`,
Machine/Ops.lean). An unlisted address holds no value: a byte that was never written, which the Bus reads
as `Config.ramInit` of its address (log entry 2). -/
abbrev Memory := List Host.Cell

/-- One write to the port space: port number and byte (20_memory.md R41). -/
structure PortWrite where
  port : Byte
  value : Byte
  deriving DecidableEq, Repr

/-- The state, one field for each element of 10_state.md section 1. -/
structure State where
  /-- The accumulator (R10). -/
  a : Byte
  /-- The flag register, eight bits of storage (R17, R18). -/
  f : Byte
  b : Byte
  c : Byte
  d : Byte
  e : Byte
  h : Byte
  l : Byte
  /-- The shadow bank A', F', B', C', D', E', H', L' (R27). -/
  a' : Byte
  f' : Byte
  b' : Byte
  c' : Byte
  d' : Byte
  e' : Byte
  h' : Byte
  l' : Byte
  /-- The index registers (R28). -/
  ix : Word
  iy : Word
  /-- Interrupt and refresh register (R22). -/
  i : Byte
  r : Byte
  /-- Address of the last byte pushed (R26). -/
  sp : Word
  /-- Address of the next byte to fetch (R15). -/
  pc : Word
  /-- The interrupt-enable flip-flops (R23). -/
  iff1 : Bool
  iff2 : Bool
  /-- The interrupt-mode selector (R24). -/
  im : IntMode
  /-- The fault latch FAULT (R31). -/
  fault : Option Fault
  /-- `CART`: byte i of the image is the byte at address i; its length is `CART_LEN` (20_memory.md R43). -/
  cart : List Byte
  /-- The bytes of RAM written since reset (20_memory.md R53). -/
  ram : Memory
  /-- Every port write so far, oldest first (20_memory.md R58, 60_exceptions.md R189). -/
  ports : List PortWrite
  deriving DecidableEq, Repr

/-- The machine right after reset (10_state.md R32): every register, flag and flip-flop zero, IM 0, no fault.
No cartridge image is loaded (log entry 3), no byte of RAM has been written (log entry 2), no port either. -/
def State.reset : State where
  a := 0
  f := 0
  b := 0
  c := 0
  d := 0
  e := 0
  h := 0
  l := 0
  a' := 0
  f' := 0
  b' := 0
  c' := 0
  d' := 0
  e' := 0
  h' := 0
  l' := 0
  ix := 0
  iy := 0
  i := 0
  r := 0
  sp := 0
  pc := 0
  iff1 := false
  iff2 := false
  im := .im0
  fault := none
  cart := []
  ram := []
  ports := []

end Sys2Proof.Machine
end

