-- ==== Sys2Proof/Machine/Ops.lean ====
section
/-! DEFINITION. The named operations over registers, memory and ports: accessors, the Bus, raising a
fault, and the fetch and stack helpers (10_state.md, 20_memory.md, 60_exceptions.md R183). -/

namespace Sys2Proof.Machine

/-- The outcome type of this machine. -/
abbrev Outcome := Host.Outcome State Fault Refusal

/-! ## Registers -/

/-- `reg8[r]` (10_state.md R11). -/
def State.reg8 (s : State) : Reg8 → Byte
  | .a => s.a
  | .b => s.b
  | .c => s.c
  | .d => s.d
  | .e => s.e
  | .h => s.h
  | .l => s.l

/-- `reg8[r] <- v` (10_state.md R11). -/
def State.setReg8 (s : State) (r : Reg8) (v : Byte) : State :=
  match r with
  | .a => { s with a := v }
  | .b => { s with b := v }
  | .c => { s with c := v }
  | .d => { s with d := v }
  | .e => { s with e := v }
  | .h => { s with h := v }
  | .l => { s with l := v }

/-- `pair_read(p)`: the first-named register is the high byte; SP is one register (10_state.md R12, R13). -/
def State.pairRead (s : State) : Reg16 → Word
  | .af => joinBytes s.a s.f
  | .bc => joinBytes s.b s.c
  | .de => joinBytes s.d s.e
  | .hl => joinBytes s.h s.l
  | .sp => s.sp

/-- `pair_write(p, v)` (10_state.md R12, R13). Writing AF writes all eight bits of F. -/
def State.pairWrite (s : State) (p : Reg16) (v : Word) : State :=
  match p with
  | .af => { s with a := hiByte v, f := loByte v }
  | .bc => { s with b := hiByte v, c := loByte v }
  | .de => { s with d := hiByte v, e := loByte v }
  | .hl => { s with h := hiByte v, l := loByte v }
  | .sp => { s with sp := v }

/-- `PC <- v`. -/
def State.setPc (s : State) (v : Word) : State := { s with pc := v }

/-- `SP <- v`. -/
def State.setSp (s : State) (v : Word) : State := { s with sp := v }

/-! ## RAM cells -/

/-- The byte written at an address, if one was. -/
def Memory.get? : Memory → Nat → Option Byte
  | [], _ => none
  | (b, w) :: m, a => if a = b then some w else Memory.get? m a

/-- The memory with the byte at an address replaced; the addresses stay strictly rising. -/
def Memory.set : Memory → Nat → Byte → Memory
  | [], a, v => [(a, v)]
  | (b, w) :: m, a, v =>
    if a < b then (a, v) :: (b, w) :: m
    else if a = b then (a, v) :: m
    else (b, w) :: Memory.set m a v

/-- Strictly rising addresses, all from `lo` to the top of the RAM window. -/
def Memory.wfFrom (lo : Nat) : Memory → Bool
  | [] => true
  | (b, _) :: m => decide (lo ≤ b) && decide (b ≤ Config.ramHi) && Memory.wfFrom (b + 1) m

/-- The canonical form of RAM: strictly rising addresses inside the RAM window. -/
def Memory.wf (m : Memory) : Bool := Memory.wfFrom Config.ramLo m

/-! ## The Bus (20_memory.md R51 to R54) -/

/-- `ROM_LO <= addr <= ROM_HI`. -/
def inRom (a : Word) : Bool := decide (Config.romLo ≤ a.toNat) && decide (a.toNat ≤ Config.romHi)

/-- `RAM_LO <= addr <= RAM_HI`. -/
def inRam (a : Word) : Bool := decide (Config.ramLo ≤ a.toNat) && decide (a.toNat ≤ Config.ramHi)

/-- `read_byte`: the byte the Bus answers for an address, or none where it fails. ROM is bounds-checked
against the image (R52); a RAM byte that was never written reads as `RAM_INIT` (R53); any other address is
unmapped (R54). -/
def State.readByte (s : State) (a : Word) : Option Byte :=
  if inRom a then s.cart[a.toNat]?
  else if inRam a then some ((s.ram.get? a.toNat).getD (Config.ramInit a.toNat))
  else none

/-- `write_byte`: the state after the Bus has stored a byte, or none where it fails, as it does in the ROM
window and at an unmapped address (R52 to R54). -/
def State.writeByte (s : State) (a : Word) (v : Byte) : Option State :=
  if inRam a then some { s with ram := s.ram.set a.toNat v } else none

/-! ## Raising a fault -/

/-- What a statement of the pseudocode does: it goes on with a value and a state, or it has raised a
fault and the rest of the step is abandoned (60_exceptions.md R183). -/
inductive Res (α : Type) where
  | ok (v : α) (s : State)
  | raised (s : State)

/-- The next statement, run only if the one before it did not raise. -/
def Res.andThen {α β : Type} (x : Res α) (k : α → State → Res β) : Res β :=
  match x with
  | .ok v s => k v s
  | .raised s => .raised s

/-- The state the step ends in, whichever way it ends. -/
def Res.state {α : Type} : Res α → State
  | .ok _ s => s
  | .raised s => s

/-- The step's answer: a next state, in which FAULT is latched if a fault was raised (log entry 1). -/
def Res.outcome {α : Type} (x : Res α) : Outcome := .next x.state

/-- `raise X(info)`: FAULT takes the record with the PC register's value, "only if FAULT = none, which it
always is when a step runs"; nothing else changes and nothing is rolled back (60_exceptions.md R183, R184).
There is no vector, no handler and so no return from it (R183, R188). -/
def State.raise (s : State) (record : Word → Fault) : State :=
  match s.fault with
  | none => { s with fault := some (record s.pc) }
  | some _ => s

/-- `MemRead(addr, 1)` (00_scope.md R6). -/
def memRead (a : Word) (s : State) : Res Byte :=
  match s.readByte a with
  | some v => .ok v s
  | none => .raised (s.raise (.busFault a .read))

/-- `MemWrite(addr, 1, v)` (00_scope.md R6). -/
def memWrite (a : Word) (v : Byte) (s : State) : Res Unit :=
  match s.writeByte a v with
  | some t => .ok () t
  | none => .raised (s.raise (.busFault a .write))

/-- `PortWrite(port, v)`: never fails and changes no state the core can read back (20_memory.md R58). -/
def portWrite (p v : Byte) (s : State) : Res Unit :=
  .ok () { s with ports := s.ports ++ [⟨p, v⟩] }

/-- What the console shows: the values written to `DIAG_PORT`, in order (20_memory.md R58). -/
def State.console (s : State) : List Byte :=
  (s.ports.filter fun w => w.port == Config.diagPort).map PortWrite.value

/-- What is "logged for diagnostics only": the writes to every other port (20_memory.md R58, R193). -/
def State.diagnosticLog (s : State) : List PortWrite :=
  s.ports.filter fun w => w.port != Config.diagPort

/-! ## Fetch helpers (20_memory.md R45) -/

def next8 (s : State) : Res Byte :=
  (memRead s.pc s).andThen fun v s => .ok v (s.setPc (s.pc + 1))

def next16 (s : State) : Res Word :=
  (next8 s).andThen fun lo s =>
  (next8 s).andThen fun hi s => .ok (joinBytes hi lo) s

/-! ## Stack helpers (20_memory.md R46, R47) -/

def push16 (v : Word) (s : State) : Res Unit :=
  let s := s.setSp (s.sp - 1)
  (memWrite s.sp (hiByte v) s).andThen fun _ s =>
  let s := s.setSp (s.sp - 1)
  memWrite s.sp (loByte v) s

def pop16 (s : State) : Res Word :=
  (memRead s.sp s).andThen fun lo s =>
  let s := s.setSp (s.sp + 1)
  (memRead s.sp s).andThen fun hi s =>
  .ok (joinBytes hi lo) (s.setSp (s.sp + 1))

end Sys2Proof.Machine
end

