-- ==== Sys2Proof/Machine/Operands.lean ====
section
/-! DEFINITION. The operand descriptor resolver (30_encoding.md R71 to R76), for an instruction whose bytes
have been fetched: a descriptor that stands for instruction bytes holds the value they gave (log entry 6).
Machine/Visit.lean has the resolver that fetches them itself. -/

namespace Sys2Proof.Machine

/-- `Addr(m)` with its instruction bytes. No instruction uses `zeroPage` (R74, D16). -/
inductive Addr where
  | direct (nn : Word)
  | zeroPage (n : Byte)
  | ind (p : Reg16)
  deriving DecidableEq, Repr

/-- A descriptor "readable as 8-bit". -/
inductive Src8 where
  | reg (r : Reg8)
  | imm (n : Byte)
  | mem (m : Addr)
  deriving DecidableEq, Repr

/-- A descriptor "writable as 8-bit". -/
inductive Dst8 where
  | reg (r : Reg8)
  | mem (m : Addr)
  deriving DecidableEq, Repr

/-- A descriptor "readable as 16-bit". -/
inductive Src16 where
  | pair (p : Reg16)
  | imm (nn : Word)
  deriving DecidableEq, Repr

/-- A descriptor that "resolves to a port number". -/
inductive Port where
  | imm (n : Byte)
  | indC
  deriving DecidableEq, Repr

/-- `resolve_addr(m)`, with no Bus access (R74). -/
def resolveAddr (m : Addr) (s : State) : Word :=
  match m with
  | .direct nn => nn
  | .zeroPage n => zext16 n
  | .ind p => s.pairRead p

/-- `read8` (R72): a memory descriptor makes exactly one Bus read. -/
def read8 (src : Src8) (s : State) : Res Byte :=
  match src with
  | .reg r => .ok (s.reg8 r) s
  | .imm n => .ok n s
  | .mem m => memRead (resolveAddr m s) s

/-- `write8` (R72): a memory descriptor makes exactly one Bus write. -/
def write8 (dst : Dst8) (v : Byte) (s : State) : Res Unit :=
  match dst with
  | .reg r => .ok () (s.setReg8 r v)
  | .mem m => memWrite (resolveAddr m s) v s

/-- `read16` (R73). -/
def read16 (src : Src16) (s : State) : Word :=
  match src with
  | .pair p => s.pairRead p
  | .imm nn => nn

/-- `write16` (R73). -/
def write16 (dst : Reg16) (v : Word) (s : State) : State := s.pairWrite dst v

/-- `resolve_port`: 8 bits, from the instruction or from register C (R75). -/
def resolvePort (p : Port) (s : State) : Byte :=
  match p with
  | .imm n => n
  | .indC => s.c

/-- `cond(c)`: each condition consults exactly one flag, or none (45_control.md R150). -/
def cond (cc : Cond) (s : State) : Bool :=
  match cc with
  | .always => true
  | .nz => !flagTest .z s.f
  | .z => flagTest .z s.f
  | .nc => !flagTest .c s.f
  | .c => flagTest .c s.f
  | .po => !flagTest .pv s.f
  | .pe => flagTest .pv s.f
  | .p => !flagTest .s s.f
  | .m => flagTest .s s.f

end Sys2Proof.Machine
end

