-- ==== Sys2Proof/Machine/Alu16.lean ====
section
/-! DEFINITION. 16-bit arithmetic (44_alu16.md). -/

namespace Sys2Proof.Machine

/-- "sum two register pairs into the destination pair"; H, C and N change (R140). -/
def add16 (dst src : Reg16) (s : State) : Res Unit :=
  let x := s.pairRead dst
  let y := s.pairRead src
  .ok () (State.pairWrite { s with f := add16Flags x y s.f } dst (x + y))

/-- "modular +1 on a register pair; no flag effect" (R141). -/
def inc16 (p : Reg16) (s : State) : Res Unit := .ok () (s.pairWrite p (s.pairRead p + 1))

/-- "modular −1 on a register pair; no flag effect" (R142). -/
def dec16 (p : Reg16) (s : State) : Res Unit := .ok () (s.pairWrite p (s.pairRead p - 1))

/-- INC BC (R141). -/
def execIncBc (s : State) : Outcome :=
  (inc16 .bc s).outcome

/-- ADD HL,BC (R140). -/
def execAddHlBc (s : State) : Outcome :=
  (add16 .hl .bc s).outcome

/-- DEC BC (R142). -/
def execDecBc (s : State) : Outcome :=
  (dec16 .bc s).outcome

/-- INC DE (R141). -/
def execIncDe (s : State) : Outcome :=
  (inc16 .de s).outcome

/-- ADD HL,DE (R140). -/
def execAddHlDe (s : State) : Outcome :=
  (add16 .hl .de s).outcome

/-- DEC DE (R142). -/
def execDecDe (s : State) : Outcome :=
  (dec16 .de s).outcome

/-- INC HL (R141). -/
def execIncHl (s : State) : Outcome :=
  (inc16 .hl s).outcome

/-- ADD HL,HL (R140). -/
def execAddHlHl (s : State) : Outcome :=
  (add16 .hl .hl s).outcome

/-- DEC HL (R142). -/
def execDecHl (s : State) : Outcome :=
  (dec16 .hl s).outcome

/-- INC SP (R141). -/
def execIncSp (s : State) : Outcome :=
  (inc16 .sp s).outcome

/-- ADD HL,SP (R140). -/
def execAddHlSp (s : State) : Outcome :=
  (add16 .hl .sp s).outcome

/-- DEC SP (R142). -/
def execDecSp (s : State) : Outcome :=
  (dec16 .sp s).outcome

end Sys2Proof.Machine
end

