-- ==== Sys2Proof/Machine/Alu8.lean ====
section
/-! DEFINITION. 8-bit logic and compare (43_alu8.md). -/

namespace Sys2Proof.Machine

/-- `A op v`, bitwise (R120). -/
def logicResult (op : LogicOp) (a v : Byte) : Byte :=
  match op with
  | .xor => a ^^^ v
  | .or => a ||| v

/-- `A <- res; set_logic_flags(res)` (R120, R121). -/
def setLogic (op : LogicOp) (v : Byte) (s : State) : State :=
  let res := logicResult op s.a v
  { s with a := res, f := logicFlags res s.f }

/-- `logic8(op, src)`: the operand is read before A is written (R120). -/
def logic8 (op : LogicOp) (src : Src8) (s : State) : Res Unit :=
  (read8 src s).andThen fun v s => .ok () (setLogic op v s)

/-- `subc_flags(A, v, cin)`: only F changes (R122). No instruction passes a carry-in of 1. -/
def setCompare (v : Byte) (cin : Bool) (s : State) : State :=
  { s with f := subcFlags s.a v cin s.f }

/-- `compare8(src)`: "CP always passes `cin = 0`" (R122). -/
def compare8 (src : Src8) (s : State) : Res Unit :=
  (read8 src s).andThen fun v s => .ok () (setCompare v false s)

/-- XOR B (R125). -/
def execXorB (s : State) : Outcome :=
  (logic8 .xor (.reg .b) s).outcome

/-- XOR C (R125). -/
def execXorC (s : State) : Outcome :=
  (logic8 .xor (.reg .c) s).outcome

/-- XOR D (R125). -/
def execXorD (s : State) : Outcome :=
  (logic8 .xor (.reg .d) s).outcome

/-- XOR E (R125). -/
def execXorE (s : State) : Outcome :=
  (logic8 .xor (.reg .e) s).outcome

/-- XOR H (R125). -/
def execXorH (s : State) : Outcome :=
  (logic8 .xor (.reg .h) s).outcome

/-- XOR L (R125). -/
def execXorL (s : State) : Outcome :=
  (logic8 .xor (.reg .l) s).outcome

/-- XOR (HL) (R126). -/
def execXorAtHl (s : State) : Outcome :=
  (logic8 .xor (.mem (.ind .hl)) s).outcome

/-- XOR A (R125). -/
def execXorA (s : State) : Outcome :=
  (logic8 .xor (.reg .a) s).outcome

/-- OR B (R128). -/
def execOrB (s : State) : Outcome :=
  (logic8 .or (.reg .b) s).outcome

/-- OR C (R128). -/
def execOrC (s : State) : Outcome :=
  (logic8 .or (.reg .c) s).outcome

/-- OR D (R128). -/
def execOrD (s : State) : Outcome :=
  (logic8 .or (.reg .d) s).outcome

/-- OR E (R128). -/
def execOrE (s : State) : Outcome :=
  (logic8 .or (.reg .e) s).outcome

/-- OR H (R128). -/
def execOrH (s : State) : Outcome :=
  (logic8 .or (.reg .h) s).outcome

/-- OR L (R128). -/
def execOrL (s : State) : Outcome :=
  (logic8 .or (.reg .l) s).outcome

/-- OR (HL) (R129). -/
def execOrAtHl (s : State) : Outcome :=
  (logic8 .or (.mem (.ind .hl)) s).outcome

/-- OR A (R128). -/
def execOrA (s : State) : Outcome :=
  (logic8 .or (.reg .a) s).outcome

/-- CP B (R131). -/
def execCpB (s : State) : Outcome :=
  (compare8 (.reg .b) s).outcome

/-- CP C (R131). -/
def execCpC (s : State) : Outcome :=
  (compare8 (.reg .c) s).outcome

/-- CP D (R131). -/
def execCpD (s : State) : Outcome :=
  (compare8 (.reg .d) s).outcome

/-- CP E (R131). -/
def execCpE (s : State) : Outcome :=
  (compare8 (.reg .e) s).outcome

/-- CP H (R131). -/
def execCpH (s : State) : Outcome :=
  (compare8 (.reg .h) s).outcome

/-- CP L (R131). -/
def execCpL (s : State) : Outcome :=
  (compare8 (.reg .l) s).outcome

/-- CP (HL) (R132). -/
def execCpAtHl (s : State) : Outcome :=
  (compare8 (.mem (.ind .hl)) s).outcome

/-- CP A (R131). -/
def execCpA (s : State) : Outcome :=
  (compare8 (.reg .a) s).outcome

/-- XOR n (R127). -/
def execXorN (n : Byte) (s : State) : Outcome :=
  (logic8 .xor (.imm n) s).outcome

/-- OR n (R130). -/
def execOrN (n : Byte) (s : State) : Outcome :=
  (logic8 .or (.imm n) s).outcome

/-- CP n (R133). -/
def execCpN (n : Byte) (s : State) : Outcome :=
  (compare8 (.imm n) s).outcome

end Sys2Proof.Machine
end

