-- ==== Sys2Proof/Machine/Block.lean ====
section
/-! DEFINITION. Block copy (42_block.md). -/

namespace Sys2Proof.Machine

/-- `ldi_body()`: read at HL, write at DE, then DE + 1, HL + 1, BC - 1; no flag (R110). -/
def ldiBody (s : State) : Res Unit :=
  (memRead (s.pairRead .hl) s).andThen fun v s =>
  (memWrite (s.pairRead .de) v s).andThen fun _ s =>
  let s := s.pairWrite .de (s.pairRead .de + 1)
  let s := s.pairWrite .hl (s.pairRead .hl + 1)
  let s := s.pairWrite .bc (s.pairRead .bc - 1)
  .ok () s

/-- One repetition of LDIR: "perform one `ldi`; if BC ≠ 0 afterward, rewind PC by 2 bytes" (R112, R113).
With BC = 0 on entry the byte is copied and BC becomes 0xFFFF (R114). -/
def ldirStep (s : State) : Res Unit :=
  (ldiBody s).andThen fun _ s =>
  .ok () (if s.pairRead .bc = 0 then s else s.setPc (s.pc - 2))

/-- LDI (R111). -/
def execLdi (s : State) : Outcome :=
  (ldiBody s).outcome

/-- LDIR (R112). -/
def execLdir (s : State) : Outcome :=
  (ldirStep s).outcome

end Sys2Proof.Machine
end

