-- ==== Sys2Proof/Machine/Control.lean ====
section
/-! DEFINITION. Control transfer (45_control.md). PC stands past the instruction's bytes when one of these
runs, and that value is the fall-through address. -/

namespace Sys2Proof.Machine

/-- `jump(c, m)`: PC takes the target iff the condition holds; no memory is read (R151, R155). -/
def jump (cc : Cond) (m : Addr) (s : State) : Res Unit :=
  let target := resolveAddr m s
  .ok () (if cond cc s then s.setPc target else s)

/-- `jr(c)`: the displacement is added to the PC that points past it (R156). -/
def jumpRelative (cc : Cond) (e : Byte) (s : State) : Res Unit :=
  .ok () (if cond cc s then s.setPc (s.pc + sext16 e) else s)

/-- `call(c)`: push the return address, then take the target; PC is assigned last (R152, R158). -/
def callTo (cc : Cond) (m : Addr) (s : State) : Res Unit :=
  let target := resolveAddr m s
  if cond cc s then (push16 s.pc s).andThen fun _ s => .ok () (s.setPc target) else .ok () s

/-- `ret`: "pop a 16-bit value into PC unconditionally" (R160). -/
def returnFrom (s : State) : Res Unit :=
  (pop16 s).andThen fun v s => .ok () (s.setPc v)

/-- JR e (R156). -/
def execJrE (e : Byte) (s : State) : Outcome :=
  (jumpRelative .always e s).outcome

/-- JR NZ,e (R157). -/
def execJrNzE (e : Byte) (s : State) : Outcome :=
  (jumpRelative .nz e s).outcome

/-- JR Z,e (R157). -/
def execJrZE (e : Byte) (s : State) : Outcome :=
  (jumpRelative .z e s).outcome

/-- JR NC,e (R157). -/
def execJrNcE (e : Byte) (s : State) : Outcome :=
  (jumpRelative .nc e s).outcome

/-- JR C,e (R157). -/
def execJrCE (e : Byte) (s : State) : Outcome :=
  (jumpRelative .c e s).outcome

/-- JP NZ,nn (R154). -/
def execJpNzNn (nn : Word) (s : State) : Outcome :=
  (jump .nz (.direct nn) s).outcome

/-- JP nn (R153). -/
def execJpNn (nn : Word) (s : State) : Outcome :=
  (jump .always (.direct nn) s).outcome

/-- CALL NZ,nn (R159). -/
def execCallNzNn (nn : Word) (s : State) : Outcome :=
  (callTo .nz (.direct nn) s).outcome

/-- RET (R160). -/
def execRet (s : State) : Outcome :=
  (returnFrom s).outcome

/-- JP Z,nn (R154). -/
def execJpZNn (nn : Word) (s : State) : Outcome :=
  (jump .z (.direct nn) s).outcome

/-- CALL Z,nn (R159). -/
def execCallZNn (nn : Word) (s : State) : Outcome :=
  (callTo .z (.direct nn) s).outcome

/-- CALL nn (R158). -/
def execCallNn (nn : Word) (s : State) : Outcome :=
  (callTo .always (.direct nn) s).outcome

/-- JP NC,nn (R154). -/
def execJpNcNn (nn : Word) (s : State) : Outcome :=
  (jump .nc (.direct nn) s).outcome

/-- CALL NC,nn (R159). -/
def execCallNcNn (nn : Word) (s : State) : Outcome :=
  (callTo .nc (.direct nn) s).outcome

/-- JP C,nn (R154). -/
def execJpCNn (nn : Word) (s : State) : Outcome :=
  (jump .c (.direct nn) s).outcome

/-- CALL C,nn (R159). -/
def execCallCNn (nn : Word) (s : State) : Outcome :=
  (callTo .c (.direct nn) s).outcome

/-- JP PO,nn (R154). -/
def execJpPoNn (nn : Word) (s : State) : Outcome :=
  (jump .po (.direct nn) s).outcome

/-- CALL PO,nn (R159). -/
def execCallPoNn (nn : Word) (s : State) : Outcome :=
  (callTo .po (.direct nn) s).outcome

/-- JP (HL) (R155). -/
def execJpAtHl (s : State) : Outcome :=
  (jump .always (.ind .hl) s).outcome

/-- JP PE,nn (R154). -/
def execJpPeNn (nn : Word) (s : State) : Outcome :=
  (jump .pe (.direct nn) s).outcome

/-- CALL PE,nn (R159). -/
def execCallPeNn (nn : Word) (s : State) : Outcome :=
  (callTo .pe (.direct nn) s).outcome

/-- JP P,nn (R154). -/
def execJpPNn (nn : Word) (s : State) : Outcome :=
  (jump .p (.direct nn) s).outcome

/-- CALL P,nn (R159). -/
def execCallPNn (nn : Word) (s : State) : Outcome :=
  (callTo .p (.direct nn) s).outcome

/-- JP M,nn (R154). -/
def execJpMNn (nn : Word) (s : State) : Outcome :=
  (jump .m (.direct nn) s).outcome

/-- CALL M,nn (R159). -/
def execCallMNn (nn : Word) (s : State) : Outcome :=
  (callTo .m (.direct nn) s).outcome

end Sys2Proof.Machine
end

