-- ==== Sys2Proof/Machine/Load16.lean ====
section
/-! DEFINITION. The 16-bit loads and the stack instructions (41_load16_stack.md). -/

namespace Sys2Proof.Machine

/-- `load16(dst, src)`: no flag, no data access (R102). -/
def load16 (dst : Reg16) (src : Src16) (s : State) : Res Unit :=
  .ok () (write16 dst (read16 src s) s)

/-- PUSH qq: `v <- pair_read(qq); push16(v)` (R104). -/
def pushPair (p : Reg16) (s : State) : Res Unit := push16 (s.pairRead p) s

/-- POP qq: `v <- pop16(); pair_write(qq, v)`; the pair is written only if both reads succeed (R105). -/
def popPair (p : Reg16) (s : State) : Res Unit :=
  (pop16 s).andThen fun v s => .ok () (s.pairWrite p v)

/-- LD BC,nn (R100). -/
def execLdBcNn (nn : Word) (s : State) : Outcome :=
  (load16 .bc (.imm nn) s).outcome

/-- LD DE,nn (R100). -/
def execLdDeNn (nn : Word) (s : State) : Outcome :=
  (load16 .de (.imm nn) s).outcome

/-- LD HL,nn (R100). -/
def execLdHlNn (nn : Word) (s : State) : Outcome :=
  (load16 .hl (.imm nn) s).outcome

/-- LD SP,nn (R100). -/
def execLdSpNn (nn : Word) (s : State) : Outcome :=
  (load16 .sp (.imm nn) s).outcome

/-- POP BC (R105). -/
def execPopBc (s : State) : Outcome :=
  (popPair .bc s).outcome

/-- PUSH BC (R104). -/
def execPushBc (s : State) : Outcome :=
  (pushPair .bc s).outcome

/-- POP DE (R105). -/
def execPopDe (s : State) : Outcome :=
  (popPair .de s).outcome

/-- PUSH DE (R104). -/
def execPushDe (s : State) : Outcome :=
  (pushPair .de s).outcome

/-- POP HL (R105). -/
def execPopHl (s : State) : Outcome :=
  (popPair .hl s).outcome

/-- PUSH HL (R104). -/
def execPushHl (s : State) : Outcome :=
  (pushPair .hl s).outcome

/-- POP AF (R105). -/
def execPopAf (s : State) : Outcome :=
  (popPair .af s).outcome

/-- PUSH AF (R104). -/
def execPushAf (s : State) : Outcome :=
  (pushPair .af s).outcome

/-- LD SP,HL (R101). -/
def execLdSpHl (s : State) : Outcome :=
  (load16 .sp (.pair .hl) s).outcome

end Sys2Proof.Machine
end

