-- ==== Sys2Proof/Machine/Load8.lean ====
section
/-! DEFINITION. The 8-bit loads (40_load8.md). -/

namespace Sys2Proof.Machine

/-- `load8(dst, src)`: read the source completely, then write the destination; no flag (R91, R77). -/
def load8 (dst : Dst8) (src : Src8) (s : State) : Res Unit :=
  (read8 src s).andThen fun v s => write8 dst v s

/-- LD (BC),A (R87). -/
def execLdAtBcA (s : State) : Outcome :=
  (load8 (.mem (.ind .bc)) (.reg .a) s).outcome

/-- LD B,n (R83). -/
def execLdBN (n : Byte) (s : State) : Outcome :=
  (load8 (.reg .b) (.imm n) s).outcome

/-- LD A,(BC) (R85). -/
def execLdAAtBc (s : State) : Outcome :=
  (load8 (.reg .a) (.mem (.ind .bc)) s).outcome

/-- LD C,n (R83). -/
def execLdCN (n : Byte) (s : State) : Outcome :=
  (load8 (.reg .c) (.imm n) s).outcome

/-- LD (DE),A (R88). -/
def execLdAtDeA (s : State) : Outcome :=
  (load8 (.mem (.ind .de)) (.reg .a) s).outcome

/-- LD D,n (R83). -/
def execLdDN (n : Byte) (s : State) : Outcome :=
  (load8 (.reg .d) (.imm n) s).outcome

/-- LD A,(DE) (R86). -/
def execLdAAtDe (s : State) : Outcome :=
  (load8 (.reg .a) (.mem (.ind .de)) s).outcome

/-- LD E,n (R83). -/
def execLdEN (n : Byte) (s : State) : Outcome :=
  (load8 (.reg .e) (.imm n) s).outcome

/-- LD H,n (R83). -/
def execLdHN (n : Byte) (s : State) : Outcome :=
  (load8 (.reg .h) (.imm n) s).outcome

/-- LD L,n (R83). -/
def execLdLN (n : Byte) (s : State) : Outcome :=
  (load8 (.reg .l) (.imm n) s).outcome

/-- LD (nn),A (R90). -/
def execLdAtNnA (nn : Word) (s : State) : Outcome :=
  (load8 (.mem (.direct nn)) (.reg .a) s).outcome

/-- LD (HL),n (R84). -/
def execLdAtHlN (n : Byte) (s : State) : Outcome :=
  (load8 (.mem (.ind .hl)) (.imm n) s).outcome

/-- LD A,(nn) (R89). -/
def execLdAAtNn (nn : Word) (s : State) : Outcome :=
  (load8 (.reg .a) (.mem (.direct nn)) s).outcome

/-- LD A,n (R83). -/
def execLdAN (n : Byte) (s : State) : Outcome :=
  (load8 (.reg .a) (.imm n) s).outcome

/-- LD B,B (R80). -/
def execLdBB (s : State) : Outcome :=
  (load8 (.reg .b) (.reg .b) s).outcome

/-- LD B,C (R80). -/
def execLdBC (s : State) : Outcome :=
  (load8 (.reg .b) (.reg .c) s).outcome

/-- LD B,D (R80). -/
def execLdBD (s : State) : Outcome :=
  (load8 (.reg .b) (.reg .d) s).outcome

/-- LD B,E (R80). -/
def execLdBE (s : State) : Outcome :=
  (load8 (.reg .b) (.reg .e) s).outcome

/-- LD B,H (R80). -/
def execLdBH (s : State) : Outcome :=
  (load8 (.reg .b) (.reg .h) s).outcome

/-- LD B,L (R80). -/
def execLdBL (s : State) : Outcome :=
  (load8 (.reg .b) (.reg .l) s).outcome

/-- LD B,(HL) (R81). -/
def execLdBAtHl (s : State) : Outcome :=
  (load8 (.reg .b) (.mem (.ind .hl)) s).outcome

/-- LD B,A (R80). -/
def execLdBA (s : State) : Outcome :=
  (load8 (.reg .b) (.reg .a) s).outcome

/-- LD C,B (R80). -/
def execLdCB (s : State) : Outcome :=
  (load8 (.reg .c) (.reg .b) s).outcome

/-- LD C,C (R80). -/
def execLdCC (s : State) : Outcome :=
  (load8 (.reg .c) (.reg .c) s).outcome

/-- LD C,D (R80). -/
def execLdCD (s : State) : Outcome :=
  (load8 (.reg .c) (.reg .d) s).outcome

/-- LD C,E (R80). -/
def execLdCE (s : State) : Outcome :=
  (load8 (.reg .c) (.reg .e) s).outcome

/-- LD C,H (R80). -/
def execLdCH (s : State) : Outcome :=
  (load8 (.reg .c) (.reg .h) s).outcome

/-- LD C,L (R80). -/
def execLdCL (s : State) : Outcome :=
  (load8 (.reg .c) (.reg .l) s).outcome

/-- LD C,(HL) (R81). -/
def execLdCAtHl (s : State) : Outcome :=
  (load8 (.reg .c) (.mem (.ind .hl)) s).outcome

/-- LD C,A (R80). -/
def execLdCA (s : State) : Outcome :=
  (load8 (.reg .c) (.reg .a) s).outcome

/-- LD D,B (R80). -/
def execLdDB (s : State) : Outcome :=
  (load8 (.reg .d) (.reg .b) s).outcome

/-- LD D,C (R80). -/
def execLdDC (s : State) : Outcome :=
  (load8 (.reg .d) (.reg .c) s).outcome

/-- LD D,D (R80). -/
def execLdDD (s : State) : Outcome :=
  (load8 (.reg .d) (.reg .d) s).outcome

/-- LD D,E (R80). -/
def execLdDE (s : State) : Outcome :=
  (load8 (.reg .d) (.reg .e) s).outcome

/-- LD D,H (R80). -/
def execLdDH (s : State) : Outcome :=
  (load8 (.reg .d) (.reg .h) s).outcome

/-- LD D,L (R80). -/
def execLdDL (s : State) : Outcome :=
  (load8 (.reg .d) (.reg .l) s).outcome

/-- LD D,(HL) (R81). -/
def execLdDAtHl (s : State) : Outcome :=
  (load8 (.reg .d) (.mem (.ind .hl)) s).outcome

/-- LD D,A (R80). -/
def execLdDA (s : State) : Outcome :=
  (load8 (.reg .d) (.reg .a) s).outcome

/-- LD E,B (R80). -/
def execLdEB (s : State) : Outcome :=
  (load8 (.reg .e) (.reg .b) s).outcome

/-- LD E,C (R80). -/
def execLdEC (s : State) : Outcome :=
  (load8 (.reg .e) (.reg .c) s).outcome

/-- LD E,D (R80). -/
def execLdED (s : State) : Outcome :=
  (load8 (.reg .e) (.reg .d) s).outcome

/-- LD E,E (R80). -/
def execLdEE (s : State) : Outcome :=
  (load8 (.reg .e) (.reg .e) s).outcome

/-- LD E,H (R80). -/
def execLdEH (s : State) : Outcome :=
  (load8 (.reg .e) (.reg .h) s).outcome

/-- LD E,L (R80). -/
def execLdEL (s : State) : Outcome :=
  (load8 (.reg .e) (.reg .l) s).outcome

/-- LD E,(HL) (R81). -/
def execLdEAtHl (s : State) : Outcome :=
  (load8 (.reg .e) (.mem (.ind .hl)) s).outcome

/-- LD E,A (R80). -/
def execLdEA (s : State) : Outcome :=
  (load8 (.reg .e) (.reg .a) s).outcome

/-- LD H,B (R80). -/
def execLdHB (s : State) : Outcome :=
  (load8 (.reg .h) (.reg .b) s).outcome

/-- LD H,C (R80). -/
def execLdHC (s : State) : Outcome :=
  (load8 (.reg .h) (.reg .c) s).outcome

/-- LD H,D (R80). -/
def execLdHD (s : State) : Outcome :=
  (load8 (.reg .h) (.reg .d) s).outcome

/-- LD H,E (R80). -/
def execLdHE (s : State) : Outcome :=
  (load8 (.reg .h) (.reg .e) s).outcome

/-- LD H,H (R80). -/
def execLdHH (s : State) : Outcome :=
  (load8 (.reg .h) (.reg .h) s).outcome

/-- LD H,L (R80). -/
def execLdHL (s : State) : Outcome :=
  (load8 (.reg .h) (.reg .l) s).outcome

/-- LD H,(HL) (R81). -/
def execLdHAtHl (s : State) : Outcome :=
  (load8 (.reg .h) (.mem (.ind .hl)) s).outcome

/-- LD H,A (R80). -/
def execLdHA (s : State) : Outcome :=
  (load8 (.reg .h) (.reg .a) s).outcome

/-- LD L,B (R80). -/
def execLdLB (s : State) : Outcome :=
  (load8 (.reg .l) (.reg .b) s).outcome

/-- LD L,C (R80). -/
def execLdLC (s : State) : Outcome :=
  (load8 (.reg .l) (.reg .c) s).outcome

/-- LD L,D (R80). -/
def execLdLD (s : State) : Outcome :=
  (load8 (.reg .l) (.reg .d) s).outcome

/-- LD L,E (R80). -/
def execLdLE (s : State) : Outcome :=
  (load8 (.reg .l) (.reg .e) s).outcome

/-- LD L,H (R80). -/
def execLdLH (s : State) : Outcome :=
  (load8 (.reg .l) (.reg .h) s).outcome

/-- LD L,L (R80). -/
def execLdLL (s : State) : Outcome :=
  (load8 (.reg .l) (.reg .l) s).outcome

/-- LD L,(HL) (R81). -/
def execLdLAtHl (s : State) : Outcome :=
  (load8 (.reg .l) (.mem (.ind .hl)) s).outcome

/-- LD L,A (R80). -/
def execLdLA (s : State) : Outcome :=
  (load8 (.reg .l) (.reg .a) s).outcome

/-- LD (HL),B (R82). -/
def execLdAtHlB (s : State) : Outcome :=
  (load8 (.mem (.ind .hl)) (.reg .b) s).outcome

/-- LD (HL),C (R82). -/
def execLdAtHlC (s : State) : Outcome :=
  (load8 (.mem (.ind .hl)) (.reg .c) s).outcome

/-- LD (HL),D (R82). -/
def execLdAtHlD (s : State) : Outcome :=
  (load8 (.mem (.ind .hl)) (.reg .d) s).outcome

/-- LD (HL),E (R82). -/
def execLdAtHlE (s : State) : Outcome :=
  (load8 (.mem (.ind .hl)) (.reg .e) s).outcome

/-- LD (HL),H (R82). -/
def execLdAtHlH (s : State) : Outcome :=
  (load8 (.mem (.ind .hl)) (.reg .h) s).outcome

/-- LD (HL),L (R82). -/
def execLdAtHlL (s : State) : Outcome :=
  (load8 (.mem (.ind .hl)) (.reg .l) s).outcome

/-- LD (HL),A (R82). -/
def execLdAtHlA (s : State) : Outcome :=
  (load8 (.mem (.ind .hl)) (.reg .a) s).outcome

/-- LD A,B (R80). -/
def execLdAB (s : State) : Outcome :=
  (load8 (.reg .a) (.reg .b) s).outcome

/-- LD A,C (R80). -/
def execLdAC (s : State) : Outcome :=
  (load8 (.reg .a) (.reg .c) s).outcome

/-- LD A,D (R80). -/
def execLdAD (s : State) : Outcome :=
  (load8 (.reg .a) (.reg .d) s).outcome

/-- LD A,E (R80). -/
def execLdAE (s : State) : Outcome :=
  (load8 (.reg .a) (.reg .e) s).outcome

/-- LD A,H (R80). -/
def execLdAH (s : State) : Outcome :=
  (load8 (.reg .a) (.reg .h) s).outcome

/-- LD A,L (R80). -/
def execLdAL (s : State) : Outcome :=
  (load8 (.reg .a) (.reg .l) s).outcome

/-- LD A,(HL) (R81). -/
def execLdAAtHl (s : State) : Outcome :=
  (load8 (.reg .a) (.mem (.ind .hl)) s).outcome

/-- LD A,A (R80). -/
def execLdAA (s : State) : Outcome :=
  (load8 (.reg .a) (.reg .a) s).outcome

end Sys2Proof.Machine
end

