-- ==== Sys2Proof/Machine/System.lean ====
section
/-! DEFINITION. Interrupt control and port output (46_system_io.md). -/

namespace Sys2Proof.Machine

/-- "disable-interrupts clears both enable flip-flops" (R170). -/
def disableInterrupts (s : State) : Res Unit := .ok () { s with iff1 := false, iff2 := false }

/-- "set-interrupt-mode stores the mode value (0/1/2) verbatim" (R171). -/
def setIntMode (m : IntMode) (s : State) : Res Unit := .ok () { s with im := m }

/-- `out(pm, src)`: the value, then the port, then one port write, which never fails (R174). -/
def out (pm : Port) (src : Src8) (s : State) : Res Unit :=
  (read8 src s).andThen fun v s => portWrite (resolvePort pm s) v s

/-- OUT (n),A (R172). -/
def execOutAtNA (n : Byte) (s : State) : Outcome :=
  (out (.imm n) (.reg .a) s).outcome

/-- DI (R170). -/
def execDi (s : State) : Outcome :=
  (disableInterrupts s).outcome

/-- OUT (C),B (R173). -/
def execOutAtCB (s : State) : Outcome :=
  (out .indC (.reg .b) s).outcome

/-- IM 0 (R171). -/
def execIm0 (s : State) : Outcome :=
  (setIntMode .im0 s).outcome

/-- OUT (C),C (R173). -/
def execOutAtCC (s : State) : Outcome :=
  (out .indC (.reg .c) s).outcome

/-- OUT (C),D (R173). -/
def execOutAtCD (s : State) : Outcome :=
  (out .indC (.reg .d) s).outcome

/-- IM 1 (R171). -/
def execIm1 (s : State) : Outcome :=
  (setIntMode .im1 s).outcome

/-- OUT (C),E (R173). -/
def execOutAtCE (s : State) : Outcome :=
  (out .indC (.reg .e) s).outcome

/-- IM 2 (R171). -/
def execIm2 (s : State) : Outcome :=
  (setIntMode .im2 s).outcome

/-- OUT (C),H (R173). -/
def execOutAtCH (s : State) : Outcome :=
  (out .indC (.reg .h) s).outcome

/-- OUT (C),L (R173). -/
def execOutAtCL (s : State) : Outcome :=
  (out .indC (.reg .l) s).outcome

/-- OUT (C),A (R173). -/
def execOutAtCA (s : State) : Outcome :=
  (out .indC (.reg .a) s).outcome

end Sys2Proof.Machine
end

