-- ==== Sys2Proof/Machine/Fetch.lean ====
section
/-! DEFINITION. Fetching and decoding one instruction at PC, a byte at a time through the Bus
(30_encoding.md R65, R66; 20_memory.md R45). It reads exactly the instruction's bytes, in ascending order,
and leaves PC past those it has read; the first byte that cannot be read, or an absent opcode, ends it. -/

namespace Sys2Proof.Machine

/-- The table entry of an opcode byte already consumed: its immediates are fetched; an absent value is a
decode error that names the byte, the table and PC (60_exceptions.md R180). -/
def fetchEntry (t : Table) (op : Byte) (entry : Option Entry) (s : State) : Res Instr :=
  match entry with
  | none => .raised (s.raise (.decodeFault t op))
  | some (.plain i) => .ok i s
  | some (.imm8 k) => (next8 s).andThen fun n s => .ok (k n) s
  | some (.imm16 k) => (next16 s).andThen fun nn s => .ok (k nn) s

/-- `visit` up to the operation: the opcode, behind the prefix the extended opcode, then the immediates. -/
def fetch (s : State) : Res Instr :=
  (next8 s).andThen fun op s =>
  if op = Config.prefixEd then
    (next8 s).andThen fun op2 s => fetchEntry .extended op2 (extendedTable op2) s
  else fetchEntry .primary op (primaryTable op) s

/-- The gate of a step: a fault latched earlier answers at once, with nothing done (60_exceptions.md R183);
otherwise the instruction at PC is fetched and run, and a fault raised by the fetch ends the step. -/
def fetchAndRun (run : Instr → State → Outcome) (s : State) : Outcome :=
  match s.fault with
  | some record => .fault record
  | none =>
    match fetch s with
    | .ok i t => run i t
    | .raised t => .next t

/-- A byte put where the Bus reads it at an address: into the cartridge image, which is lengthened with
zero bytes up to that address if it is shorter, or into RAM. At an unmapped address nothing can be put. -/
def State.placeByte (s : State) (a : Word) (v : Byte) : State :=
  if inRom a then
    { s with cart := (s.cart ++ List.replicate (a.toNat + 1 - s.cart.length) 0).set a.toNat v }
  else if inRam a then { s with ram := s.ram.set a.toNat v }
  else s

/-- Bytes put at ascending addresses. -/
def State.placeBytes (s : State) (a : Word) : List Byte → State
  | [] => s
  | v :: bytes => (s.placeByte a v).placeBytes (a + 1) bytes

end Sys2Proof.Machine
end

