-- ==== Sys2Proof/Machine/Step.lean ====
section
/-! DEFINITION. One step (00_scope.md R8): fetch, decode, execute. -/

namespace Sys2Proof.Machine

/-- One step request. It is never refused, and it faults only if FAULT is latched already (log entry 1). -/
def step (s : State) : Host.Outcome State Fault Refusal := fetchAndRun exec s

/-- The state with the instruction of a word of opcode_table.json stored at PC, where `step` fetches next:
its three bytes (those above `nbits` zero) stand for the image or RAM contents that a load from outside
the machine would put there (log entry 3). -/
def State.withFetchWord (s : State) (nbits w : Nat) : State := s.placeBytes s.pc (tableBytes nbits w)

end Sys2Proof.Machine
end

