-- ==== Sys2Proof/Machine/Reset.lean ====
section
/-! DEFINITION. The reset event (70_reset_and_hazards.md R200 to R202), an input beside the step request
(00_scope.md R9). It is no part of `step`. -/

namespace Sys2Proof.Machine

/-- Reset with `RESET_STATE` given: every element of the core takes its value there and FAULT becomes none;
the cartridge and the port writes are outside the core and stay; RAM holds `RAM_INIT` (log entry 5). -/
def State.resetWith (values : State) (s : State) : State :=
  { values with fault := none, cart := s.cart, ram := [], ports := s.ports }

/-- Reset with the default `RESET_STATE`, all zero (R200, 10_state.md R32). -/
def State.applyReset (s : State) : State := State.resetWith State.reset s

end Sys2Proof.Machine
end

