-- ==== Sys2Proof/Machine/Visit.lean ====
section
/-! DEFINITION. The spec's own pseudocode of a step, in which a descriptor fetches its instruction bytes
with `next8`/`next16` when the operation asks for them (30_encoding.md R65, R66, R72 to R77, and the operation
rules of files 40 to 46). `step` fetches all bytes before it executes (log entry 6); the obligation
StepAgreesWithVisit says that the two agree. -/

namespace Sys2Proof.Machine.Visit

/-- `resolve_addr(m)` (R74). -/
def resolveAddr (m : AddrDesc) (s : State) : Res Word :=
  match m with
  | .direct => next16 s
  | .zeroPage => (next8 s).andThen fun n s => .ok (zext16 n) s
  | .ind p => .ok (s.pairRead p) s

/-- `read8` (R72). -/
def read8 (src : SrcDesc) (s : State) : Res Byte :=
  match src with
  | .reg r => .ok (s.reg8 r) s
  | .imm => next8 s
  | .addr m => (resolveAddr m s).andThen fun a s => memRead a s

/-- `write8` (R72). -/
def write8 (dst : DstDesc) (v : Byte) (s : State) : Res Unit :=
  match dst with
  | .reg r => .ok () (s.setReg8 r v)
  | .addr m => (resolveAddr m s).andThen fun a s => memWrite a v s

/-- `read16` (R73). -/
def read16 (src : Src16Desc) (s : State) : Res Word :=
  match src with
  | .pair p => .ok (s.pairRead p) s
  | .imm => next16 s

/-- `resolve_port` (R75). -/
def resolvePort (pm : PortDesc) (s : State) : Res Byte :=
  match pm with
  | .imm => next8 s
  | .indC => .ok s.c s

/-- The operation of a table entry, run with PC past the opcode bytes. -/
def run (entry : Invocation) (s : State) : Res Unit :=
  match entry with
  | .load8 dst src => (read8 src s).andThen fun v s => write8 dst v s
  | .load16 dst src => (read16 src s).andThen fun v s => .ok () (s.pairWrite dst v)
  | .push src => push16 (s.pairRead src) s
  | .pop dst => (pop16 s).andThen fun v s => .ok () (s.pairWrite dst v)
  | .ldi => ldiBody s
  | .ldir =>
    (ldiBody s).andThen fun _ s =>
    if s.pairRead .bc ≠ 0 then .ok () (s.setPc (s.pc - 2)) else .ok () s
  | .logic8 op src => (read8 src s).andThen fun v s => .ok () (setLogic op v s)
  | .compare8 src => (read8 src s).andThen fun v s => .ok () (setCompare v false s)
  | .add16 dst src =>
    let x := s.pairRead dst
    let y := s.pairRead src
    .ok () (State.pairWrite { s with f := add16Flags x y s.f } dst (x + y))
  | .inc16 p => .ok () (s.pairWrite p (s.pairRead p + 1))
  | .dec16 p => .ok () (s.pairWrite p (s.pairRead p - 1))
  | .jump cc target =>
    (resolveAddr target s).andThen fun a s => .ok () (if cond cc s then s.setPc a else s)
  | .jr cc =>
    (next8 s).andThen fun e s => .ok () (if cond cc s then s.setPc (s.pc + sext16 e) else s)
  | .call cc target =>
    (resolveAddr target s).andThen fun a s =>
    if cond cc s then (push16 s.pc s).andThen fun _ s => .ok () (s.setPc a) else .ok () s
  | .ret => (pop16 s).andThen fun v s => .ok () (s.setPc v)
  | .di => .ok () { s with iff1 := false, iff2 := false }
  | .im m => .ok () { s with im := m }
  | .out pm src =>
    (read8 src s).andThen fun v s =>
    (resolvePort pm s).andThen fun p s => portWrite p v s

/-- The stateless entry of a table row: its descriptors do not depend on the immediates. -/
def invocationOf (entry : Entry) : Invocation :=
  match entry with
  | .plain i => i.invocation
  | .imm8 k => (k 0).invocation
  | .imm16 k => (k 0).invocation

/-- An opcode byte looked up in its table: its operation runs, or the decode error is raised. -/
def dispatch (t : Table) (op : Byte) (entry : Option Entry) (s : State) : Res Unit :=
  match entry with
  | none => .raised (s.raise (.decodeFault t op))
  | some entry => run (invocationOf entry) s

/-- `visit_ed()` (R66). -/
def visitEd (s : State) : Res Unit :=
  (next8 s).andThen fun op2 s => dispatch .extended op2 (extendedTable op2) s

/-- `visit()` (R65). -/
def visit (s : State) : Res Unit :=
  (next8 s).andThen fun op s =>
  if op = Config.prefixEd then visitEd s else dispatch .primary op (primaryTable op) s

end Sys2Proof.Machine.Visit
end

