-- ==== Sys2Proof/Safety.lean ====
section
/-! DEFINITION. The terms claims are stated in: running and faulted states, code in memory, what a
latched record must say, the invariant of the machine, the addresses an instruction stores to, and the
parts of the state that no instruction uses. -/

namespace Sys2Proof.Machine

/-! ## Codes and values of the opcode map, as 30_encoding.md prints them -/

/-- The register codes of R62. Code 6 is (HL). -/
def regCode : Reg8 → Nat
  | .b => 0
  | .c => 1
  | .d => 2
  | .e => 3
  | .h => 4
  | .l => 5
  | .a => 7

def ddCode : PairDd → Nat
  | .bc => 0
  | .de => 1
  | .hl => 2
  | .sp => 3

def qqCode : PairQq → Nat
  | .bc => 0
  | .de => 1
  | .hl => 2
  | .af => 3

/-- The condition codes of R62; `always` has none, it is written by another opcode. -/
def condCode : Cond → Option Nat
  | .always => none
  | .nz => some 0
  | .z => some 1
  | .nc => some 2
  | .c => some 3
  | .po => some 4
  | .pe => some 5
  | .p => some 6
  | .m => some 7

/-- The first and the last value of each run of the list of 99 absent primary values (R70). -/
def absentPrimaryRuns : List (Nat × Nat) := [
  (0x00, 0x00), (0x04, 0x05), (0x07, 0x08), (0x0C, 0x0D), (0x0F, 0x10), (0x14, 0x15), (0x17, 0x17),
  (0x1C, 0x1D), (0x1F, 0x1F), (0x22, 0x22), (0x24, 0x25), (0x27, 0x27), (0x2A, 0x2A), (0x2C, 0x2D),
  (0x2F, 0x2F), (0x34, 0x35), (0x37, 0x37), (0x3C, 0x3D), (0x3F, 0x3F), (0x76, 0x76), (0x80, 0x9F),
  (0xA0, 0xA7), (0xC0, 0xC0), (0xC6, 0xC8), (0xCB, 0xCB), (0xCE, 0xD0), (0xD6, 0xD9), (0xDB, 0xDB),
  (0xDD, 0xE0), (0xE3, 0xE3), (0xE6, 0xE8), (0xEB, 0xEB), (0xEF, 0xF0), (0xF7, 0xF8), (0xFB, 0xFB),
  (0xFD, 0xFD), (0xFF, 0xFF)]

/-- The value is in the list of absent primary values (R70). -/
def absentPrimary (op : Byte) : Bool := absentPrimaryRuns.any fun r => r.1 ≤ op.toNat && op.toNat ≤ r.2

/-- The second bytes of the extended table (R70); every other value is absent. -/
def extendedValues : List Byte :=
  [0xA0, 0xB0, 0x46, 0x56, 0x5E, 0x41, 0x49, 0x51, 0x59, 0x61, 0x69, 0x79]

/-! ## States and runs -/

/-- No fault is latched: a step request will run an instruction. -/
def State.Running (s : State) : Prop := s.fault = none

/-- The bytes stand at PC and after it, addresses modulo 65536 (30_encoding.md R60). -/
def CodeAt (s : State) (bytes : List Byte) : Prop :=
  ∀ k (h : k < bytes.length), s.readByte (s.pc + BitVec.ofNat 16 k) = some bytes[k]

/-- What a step of this state answers after the instruction's bytes are consumed: PC past them. -/
def State.past (s : State) (len : Nat) : State := s.setPc (s.pc + BitVec.ofNat 16 len)

/-- The `pc` of a fault record (60_exceptions.md R181). -/
def Fault.pc : Fault → Word
  | .decodeFault _ _ pc => pc
  | .busFault _ _ pc => pc

/-- The record names a cause that is there: an opcode value absent from its table (R180), or an access
that the Bus does not serve in this state (R182). -/
def Fault.Genuine (s : State) : Fault → Prop
  | .decodeFault .primary op _ => op ≠ Config.prefixEd ∧ (primaryTable op).isNone
  | .decodeFault .extended op _ => (extendedTable op).isNone
  | .busFault a .read _ => s.readByte a = none
  | .busFault a .write _ => inRam a = false

/-- The invariant of the machine: RAM is in its canonical form, and a latched record names a genuine cause
and the value PC had, and still has, when it was raised (10_state.md R31, 60_exceptions.md R181). -/
def State.Inv (s : State) : Prop :=
  s.ram.wf = true ∧ ∀ record, s.fault = some record → record.pc = s.pc ∧ record.Genuine s

/-- The Bus writes of an instruction, as 20_memory.md R49 lists them: the addresses it stores to when it
runs in this state (PC past its bytes). -/
def storedAddrs (i : Instr) (s : State) : List Word :=
  match i with
  | .ldAtHlB | .ldAtHlC | .ldAtHlD | .ldAtHlE | .ldAtHlH | .ldAtHlL | .ldAtHlA => [s.pairRead .hl]
  | .ldAtHlN _ => [s.pairRead .hl]
  | .ldAtBcA => [s.pairRead .bc]
  | .ldAtDeA => [s.pairRead .de]
  | .ldAtNnA nn => [nn]
  | .pushBc | .pushDe | .pushHl | .pushAf => [s.sp - 1, s.sp - 2]
  | .callNn _ => [s.sp - 1, s.sp - 2]
  | .callNzNn _ => if cond .nz s then [s.sp - 1, s.sp - 2] else []
  | .callZNn _ => if cond .z s then [s.sp - 1, s.sp - 2] else []
  | .callNcNn _ => if cond .nc s then [s.sp - 1, s.sp - 2] else []
  | .callCNn _ => if cond .c s then [s.sp - 1, s.sp - 2] else []
  | .callPoNn _ => if cond .po s then [s.sp - 1, s.sp - 2] else []
  | .callPeNn _ => if cond .pe s then [s.sp - 1, s.sp - 2] else []
  | .callPNn _ => if cond .p s then [s.sp - 1, s.sp - 2] else []
  | .callMNn _ => if cond .m s then [s.sp - 1, s.sp - 2] else []
  | .ldi => [s.pairRead .de]
  | .ldir => [s.pairRead .de]
  | _ => []

/-- XOR, OR, CP, ADD HL,ss and POP AF: the instructions that change flags (10_state.md R20). -/
def writesFlags (i : Instr) : Prop :=
  (∃ op src, i = .logic op src) ∨ (∃ src, i = .cpS src) ∨ (∃ p, i = .addHl p) ∨ i = .popAf

/-- The instructions that write SP (10_state.md, table of section 1). -/
def writesSp (i : Instr) : Prop :=
  (∃ nn, i = .ldSpNn nn) ∨ i = .ldSpHl ∨ i = .incSp ∨ i = .decSp ∨
  (∃ q, i = .push q) ∨ (∃ q, i = .pop q) ∨ (∃ cc nn, i = .call cc nn) ∨ i = .ret

/-- The two OUT forms (46_system_io.md R172, R173). -/
def isOut (i : Instr) : Prop := (∃ n, i = .outAtNA n) ∨ ∃ r, i = .outToC r

/-- The value of an operand of XOR, OR or CP, if it can be read (43_alu8.md R120, 30_encoding.md R72). -/
def aluValue (s : State) : AluSrc → Option Byte
  | .reg r => some (s.reg8 r)
  | .atHl => s.readByte (s.pairRead .hl)
  | .imm n => some n

/-- The state with the general registers A, B, C, D, E, H, L of another: what is left to compare is
everything else. -/
def State.withGeneral (t s : State) : State :=
  { t with a := s.a, b := s.b, c := s.c, d := s.d, e := s.e, h := s.h, l := s.l }

/-- The state with the elements that no instruction reads or writes taken from another: the shadow bank,
IX, IY, I and R (10_state.md R22, R27, R28). -/
def State.withInert (t s : State) : State :=
  { t with a' := s.a', f' := s.f', b' := s.b', c' := s.c', d' := s.d', e' := s.e', h' := s.h', l' := s.l',
           ix := s.ix, iy := s.iy, i := s.i, r := s.r }

/-- The state with IFF1, IFF2, IM, I and R at fixed values: what is left to compare is everything else
(10_state.md R25). -/
def State.forgetControl (s : State) : State :=
  { s with iff1 := false, iff2 := false, im := .im0, i := 0, r := 0 }

/-- An answer with its next state, if it has one, mapped. -/
def mapNext (g : State → State) : Outcome → Outcome
  | .next s => .next (g s)
  | .fault r => .fault r
  | .refused r => .refused r

/-- A byte stored at an address and nothing else changed: every other byte reads as before, and so does
everything that is not RAM. -/
def StoredByte (s : State) (a : Word) (v : Byte) (t : State) : Prop :=
  t.readByte a = some v ∧ (∀ x, x ≠ a → t.readByte x = s.readByte x) ∧ { t with ram := s.ram } = s

/-- The high and the low register of a stack pair (41_load16_stack.md R104). -/
def highOf (s : State) : PairQq → Byte
  | .bc => s.b
  | .de => s.d
  | .hl => s.h
  | .af => s.a

def lowOf (s : State) : PairQq → Byte
  | .bc => s.c
  | .de => s.e
  | .hl => s.l
  | .af => s.f

/-- A run of steps that raise nothing: the state after `n` of them. -/
def runs (n : Nat) (s t : State) : Prop :=
  match n with
  | 0 => t = s
  | n + 1 => ∃ u, step s = .next u ∧ u.fault = none ∧ runs n u t

end Sys2Proof.Machine
end

