-- ==== Sys2Proof/Certificates/Slice0/Obligations.lean ====
section
/-! DEFINITION. The statements for the provers. `s.past len` is the state with PC past the instruction's
bytes; `exec i` runs with PC there already. -/

open Sys2Proof Sys2Proof.Machine

/-! ## Encoding -/

/-- Every instruction is well formed, and decoding its encoding gives it back with every operand at every
value, whatever bytes follow (30_encoding.md R60, R64, R70). -/
def Obligations.DecodeReadsBackEveryEncoding : Prop :=
  ∀ (i : Instr) (rest : List Byte), i.WellFormed = true ∧ decode (encode i ++ rest) = .ok (i, rest)

/-- The other direction: the bytes an instruction was decoded from are its encoding, so each sequence of
bytes has one meaning and an instruction has one encoding (30_encoding.md R68). -/
def Obligations.DecodedBytesAreTheEncoding : Prop :=
  ∀ (bytes rest : List Byte) (i : Instr), decode bytes = .ok (i, rest) → bytes = encode i ++ rest

/-- The literal tables have the regular structure of 30_encoding.md R61 and R62: register, pair and
condition codes in the opcode byte select the operands in every pattern of R70 that has a field. The codes and
the opcode bytes are the Z80's, which the spec takes from general knowledge (PRESUMED, log entry 10). -/
def Obligations.RegularFieldsSelectTheOperands : Prop :=
  ∀ rest : List Byte,
    (∀ dst r, decode (BitVec.ofNat 8 (0x40 + 8 * regCode dst + regCode r) :: rest) = .ok (.ldReg dst r, rest)) ∧
    (∀ dst, decode (BitVec.ofNat 8 (0x46 + 8 * regCode dst) :: rest) = .ok (.ldFromHl dst, rest)) ∧
    (∀ r, decode (BitVec.ofNat 8 (0x70 + regCode r) :: rest) = .ok (.ldToHl r, rest)) ∧
    (∀ dst n, decode (BitVec.ofNat 8 (0x06 + 8 * regCode dst) :: n :: rest) = .ok (.ldImm dst n, rest)) ∧
    (∀ p lo hi, decode (BitVec.ofNat 8 (0x01 + 16 * ddCode p) :: lo :: hi :: rest) =
      .ok (.ldPair p (hi ++ lo), rest)) ∧
    (∀ q, decode (BitVec.ofNat 8 (0xC5 + 16 * qqCode q) :: rest) = .ok (.push q, rest)) ∧
    (∀ q, decode (BitVec.ofNat 8 (0xC1 + 16 * qqCode q) :: rest) = .ok (.pop q, rest)) ∧
    (∀ r, decode (BitVec.ofNat 8 (0xA8 + regCode r) :: rest) = .ok (.xorS (.reg r), rest)) ∧
    (∀ r, decode (BitVec.ofNat 8 (0xB0 + regCode r) :: rest) = .ok (.orS (.reg r), rest)) ∧
    (∀ r, decode (BitVec.ofNat 8 (0xB8 + regCode r) :: rest) = .ok (.cpS (.reg r), rest)) ∧
    (∀ p, decode (BitVec.ofNat 8 (0x09 + 16 * ddCode p) :: rest) = .ok (.addHl p, rest)) ∧
    (∀ p, decode (BitVec.ofNat 8 (0x03 + 16 * ddCode p) :: rest) = .ok (.incPair p, rest)) ∧
    (∀ p, decode (BitVec.ofNat 8 (0x0B + 16 * ddCode p) :: rest) = .ok (.decPair p, rest)) ∧
    (∀ cc k lo hi, condCode cc = some k →
      decode (BitVec.ofNat 8 (0xC2 + 8 * k) :: lo :: hi :: rest) = .ok (.jp cc (hi ++ lo), rest)) ∧
    (∀ cc k lo hi, condCode cc = some k →
      decode (BitVec.ofNat 8 (0xC4 + 8 * k) :: lo :: hi :: rest) = .ok (.call cc (hi ++ lo), rest)) ∧
    (∀ cc k e, condCode cc.cond = some k →
      decode (BitVec.ofNat 8 (0x20 + 8 * k) :: e :: rest) = .ok (.jr cc e, rest)) ∧
    (∀ r, decode (0xED :: BitVec.ofNat 8 (0x41 + 8 * regCode r) :: rest) = .ok (.outToC r, rest))

/-- The encodings of 30_encoding.md R70 that no field varies, each from its own byte. The byte values are the
Z80's, which the spec takes from general knowledge (PRESUMED, log entry 10; the spec's decisions D1 and D2). -/
def Obligations.UnvaryingEncodingsDecode : Prop :=
  ∀ (n lo hi : Byte) (rest : List Byte),
    decode (0x36 :: n :: rest) = .ok (.ldAtHlN n, rest) ∧
    decode (0x0A :: rest) = .ok (.ldAAtBc, rest) ∧ decode (0x1A :: rest) = .ok (.ldAAtDe, rest) ∧
    decode (0x02 :: rest) = .ok (.ldAtBcA, rest) ∧ decode (0x12 :: rest) = .ok (.ldAtDeA, rest) ∧
    decode (0x3A :: lo :: hi :: rest) = .ok (.ldAAtNn (hi ++ lo), rest) ∧
    decode (0x32 :: lo :: hi :: rest) = .ok (.ldAtNnA (hi ++ lo), rest) ∧
    decode (0xF9 :: rest) = .ok (.ldSpHl, rest) ∧
    decode (0xAE :: rest) = .ok (.xorAtHl, rest) ∧ decode (0xEE :: n :: rest) = .ok (.xorN n, rest) ∧
    decode (0xB6 :: rest) = .ok (.orAtHl, rest) ∧ decode (0xF6 :: n :: rest) = .ok (.orN n, rest) ∧
    decode (0xBE :: rest) = .ok (.cpAtHl, rest) ∧ decode (0xFE :: n :: rest) = .ok (.cpN n, rest) ∧
    decode (0xC3 :: lo :: hi :: rest) = .ok (.jpNn (hi ++ lo), rest) ∧
    decode (0xE9 :: rest) = .ok (.jpAtHl, rest) ∧ decode (0x18 :: n :: rest) = .ok (.jrE n, rest) ∧
    decode (0xCD :: lo :: hi :: rest) = .ok (.callNn (hi ++ lo), rest) ∧
    decode (0xC9 :: rest) = .ok (.ret, rest) ∧ decode (0xF3 :: rest) = .ok (.di, rest) ∧
    decode (0xD3 :: n :: rest) = .ok (.outAtNA n, rest) ∧
    decode (0xED :: 0x46 :: rest) = .ok (.im0, rest) ∧ decode (0xED :: 0x56 :: rest) = .ok (.im1, rest) ∧
    decode (0xED :: 0x5E :: rest) = .ok (.im2, rest) ∧
    decode (0xED :: 0xA0 :: rest) = .ok (.ldi, rest) ∧ decode (0xED :: 0xB0 :: rest) = .ok (.ldir, rest)

/-- Exactly the listed values are absent: a primary opcode byte is rejected as absent iff it is one of the
99 of 30_encoding.md R70, and a second byte after 0xED iff it is none of the 12 (R67). Which instructions are
admitted is the spec's decision D1 (log entry 11), and their byte values are PRESUMED (log entry 10). -/
def Obligations.ExactlyTheListedValuesAreAbsent : Prop :=
  (∀ (op : Byte) (rest : List Byte),
    decode (op :: rest) = .error (.absent .primary op) ↔ absentPrimary op = true) ∧
  (∀ (op : Byte) (rest : List Byte),
    decode (0xED :: op :: rest) = .error (.absent .extended op) ↔ op ∉ extendedValues)

/-! ## A step -/

/-- When the bytes at PC decode to an instruction and no fault is latched, a step is that instruction's
meaning, run with PC past its bytes (00_scope.md R8, 10_state.md R15). -/
def Obligations.StepRunsTheDecodedInstruction : Prop :=
  ∀ (s : State) (bytes : List Byte) (i : Instr),
    s.Running → CodeAt s bytes → decode bytes = .ok (i, []) → step s = exec i (s.past bytes.length)

/-- An absent opcode byte latches a decode fault that names the table, the byte and the PC past it, and
changes nothing else (60_exceptions.md R180; that the record's pc is the PC register is the spec's decision D9). -/
def Obligations.AbsentOpcodeLatchesADecodeFault : Prop :=
  ∀ (s : State) (op : Byte), s.Running →
    (CodeAt s [op] → absentPrimary op = true →
      step s = .next { s with pc := s.pc + 1, fault := some (.decodeFault .primary op (s.pc + 1)) }) ∧
    (CodeAt s [0xED, op] → op ∉ extendedValues →
      step s = .next { s with pc := s.pc + 2, fault := some (.decodeFault .extended op (s.pc + 2)) })

/-- If the bytes at PC are the beginning of an instruction that goes on, and the next byte cannot be read,
the step latches a bus fault for that byte, PC past the bytes it has read, and changes nothing else
(60_exceptions.md R184, the rows of the opcode, extended-opcode and immediate fetches; the spec derives them). -/
def Obligations.UnreadableInstructionByteLatchesABusFault : Prop :=
  ∀ (s : State) (bytes : List Byte), s.Running → CodeAt s bytes → decode bytes = .error .truncated →
    s.readByte (s.past bytes.length).pc = none →
    step s = .next { s with
      pc := (s.past bytes.length).pc
      fault := some (.busFault (s.past bytes.length).pc .read (s.past bytes.length).pc) }

/-- A latched fault answers every step request with its record; with no fault latched a step always answers
a next state, so the latch is the only thing that stops the machine (60_exceptions.md R183, R189; how the
answer "faulted" is coded is the model's choice, log entry 1). -/
def Obligations.OnlyALatchedFaultStopsTheMachine : Prop :=
  (∀ (s : State) (record : Fault), s.fault = some record → step s = .fault record) ∧
  (∀ s : State, s.Running → ∃ t, step s = .next t)

/-- The step, which fetches all bytes of an instruction and then executes it, agrees in every state with the
spec's pseudocode, in which each descriptor fetches its own bytes when it is resolved: the same next state,
the same fault, the same partial effects (30_encoding.md R65, R66, R72 to R77; log entry 6). -/
def Obligations.StepAgreesWithVisit : Prop :=
  ∀ s : State, s.Running → step s = (Visit.visit s).outcome

/-! ## Invariants and whole-machine rules -/

/-- RAM stays in its canonical form, and a latched record names a genuine cause and the PC register: every
step keeps it (10_state.md R31, 60_exceptions.md R180 to R184; log entry 2). -/
def Obligations.EveryStepKeepsTheInvariant : Prop :=
  ∀ s t : State, s.Inv → step s = .next t → t.Inv

/-- The invariant holds after reset, with any reset values, from any state (70_reset_and_hazards.md R200). -/
def Obligations.ResetEstablishesTheInvariant : Prop :=
  State.reset.Inv ∧ ∀ values s : State, (State.resetWith values s).Inv

/-- No step changes the shadow bank, IX, IY, I, R or the cartridge (10_state.md R22, R27, R28; 20_memory.md R43). -/
def Obligations.NoStepChangesInertState : Prop :=
  ∀ s t : State, step s = .next t → t.withInert s = t ∧ t.cart = s.cart

/-- The shadow bank, IX, IY, I and R influence no step: with other values in them a step does the same and
leaves those other values there (10_state.md R27, R28, 93_implementation_defined.md U14). -/
def Obligations.InertStateInfluencesNoStep : Prop :=
  ∀ s x : State, step (s.withInert x) = mapNext (fun t => t.withInert x) (step s)

/-- "IFF1, IFF2, IM, I and R have no effect on any step" (10_state.md R25): whatever their values, a step
answers the same, apart from those elements themselves. -/
def Obligations.InterruptStateInfluencesNoStep : Prop :=
  ∀ (s : State) (iff1 iff2 : Bool) (im : IntMode) (i r : Byte),
    mapNext State.forgetControl (step { s with iff1 := iff1, iff2 := iff2, im := im, i := i, r := r }) =
    mapNext State.forgetControl (step s)

/-- Only DI changes IFF1 and IFF2, and only IM m changes IM; no instruction sets a flip-flop to 1
(10_state.md R23, R24). -/
def Obligations.OnlyDiAndImChangeInterruptState : Prop :=
  ∀ (i : Instr) (s t : State), exec i s = .next t →
    (i ≠ .di → t.iff1 = s.iff1 ∧ t.iff2 = s.iff2) ∧
    ((∀ m, i ≠ .im m) → t.im = s.im) ∧
    (t.iff1 = true → s.iff1 = true) ∧ (t.iff2 = true → s.iff2 = true)

/-- Only XOR, OR, CP, ADD HL,ss and POP AF change F, and only POP AF changes its two unnamed bits
(10_state.md R19, R20, 70_reset_and_hazards.md R212; that the unnamed bits stay is the spec's decision D4). -/
def Obligations.OnlyTheFlagInstructionsChangeF : Prop :=
  ∀ (i : Instr) (s t : State), exec i s = .next t →
    (¬ writesFlags i → t.f = s.f) ∧
    (i ≠ .popAf → t.f.getLsbD 5 = s.f.getLsbD 5 ∧ t.f.getLsbD 3 = s.f.getLsbD 3)

/-- Only LD SP, INC SP, DEC SP, PUSH, POP, CALL and RET change SP (10_state.md, table of section 1). -/
def Obligations.OnlyTheStackInstructionsChangeSp : Prop :=
  ∀ (i : Instr) (s t : State), exec i s = .next t → ¬ writesSp i → t.sp = s.sp

/-- An instruction changes no byte of memory but those at the addresses it stores to, which the statement
computes from the state it runs in; this holds also when a fault ends it (20_memory.md R49, R50). -/
def Obligations.OnlyStoredBytesChange : Prop :=
  ∀ (i : Instr) (s t : State) (a : Word), exec i s = .next t → a ∉ storedAddrs i s →
    t.readByte a = s.readByte a

/-- Port writes are only ever appended, at most one in a step, and only by an OUT (20_memory.md R58, R49). -/
def Obligations.PortWritesAreOnlyAppendedByOut : Prop :=
  (∀ s t : State, step s = .next t → t.ports = s.ports ∨ ∃ w, t.ports = s.ports ++ [w]) ∧
  (∀ (i : Instr) (s t : State), exec i s = .next t → ¬ isOut i → t.ports = s.ports)

/-! ## State, Bus and helpers -/

/-- Pairs are views of their halves, the first-named register the high byte; writing a pair splits it and
changes nothing else; reading it back gives the value, and writing back what was read changes nothing
(10_state.md R12, R14); that SP is one register under the pair accessor is the spec's decision D22 (R13, log
entry 11). -/
def Obligations.PairsAreViewsOfTheirHalves : Prop :=
  ∀ (s : State) (v : Word),
    (s.pairRead .bc).toNat = 256 * s.b.toNat + s.c.toNat ∧
    (s.pairRead .de).toNat = 256 * s.d.toNat + s.e.toNat ∧
    (s.pairRead .hl).toNat = 256 * s.h.toNat + s.l.toNat ∧
    (s.pairRead .af).toNat = 256 * s.a.toNat + s.f.toNat ∧
    s.pairWrite .bc v = { s with b := BitVec.ofNat 8 (v.toNat / 256), c := BitVec.ofNat 8 v.toNat } ∧
    s.pairWrite .de v = { s with d := BitVec.ofNat 8 (v.toNat / 256), e := BitVec.ofNat 8 v.toNat } ∧
    s.pairWrite .hl v = { s with h := BitVec.ofNat 8 (v.toNat / 256), l := BitVec.ofNat 8 v.toNat } ∧
    s.pairWrite .af v = { s with a := BitVec.ofNat 8 (v.toNat / 256), f := BitVec.ofNat 8 v.toNat } ∧
    s.pairWrite .sp v = { s with sp := v } ∧
    ∀ p, (s.pairWrite p v).pairRead p = v ∧ s.pairWrite p (s.pairRead p) = s ∧
      (s.pairWrite p v).pairWrite p ((s.pairWrite p v).pairRead p) = s.pairWrite p v

/-- `flag_set` sets one named bit and leaves the other seven of F; `flag_test` returns it; the six named
bits are 7, 6, 4, 2, 1, 0 (10_state.md R18, R19; the positions are the spec's decision D3, PRESUMED, log entry 10). -/
def Obligations.FlagAccessorsTouchOneBit : Prop :=
  ∀ (x : Flag) (v : Bool) (f : Byte),
    flagTest x (flagSet x v f) = v ∧
    (∀ n, n < 8 → n ≠ x.bit → (flagSet x v f).getLsbD n = f.getLsbD n) ∧
    flagTest .s f = f.getLsbD 7 ∧ flagTest .z f = f.getLsbD 6 ∧ flagTest .h f = f.getLsbD 4 ∧
    flagTest .pv f = f.getLsbD 2 ∧ flagTest .n f = f.getLsbD 1 ∧ flagTest .c f = f.getLsbD 0

/-- A read of the ROM window gives the image byte at that absolute address, and past the image, like a write
anywhere in the window, raises a bus fault that changes nothing but FAULT (20_memory.md R52; both faults are the
spec's decisions D10 and D11, log entry 11). The end of the window, 0xBFFF, is the default of the spec's parameter
ROM_HI (D25), which the model fixes (DESIGN CHOICE, log entry 9). -/
def Obligations.RomWindowIsReadOnlyAndBoundsChecked : Prop :=
  ∀ (s : State) (a : Word) (v : Byte), s.Running → a.toNat ≤ 0xBFFF →
    (∀ h : a.toNat < s.cart.length, memRead a s = .ok (s.cart[a.toNat]) s) ∧
    (s.cart.length ≤ a.toNat → memRead a s = .raised { s with fault := some (.busFault a .read s.pc) }) ∧
    memWrite a v s = .raised { s with fault := some (.busFault a .write s.pc) }

/-- RAM: a write stores its byte, is seen by the reads after it and changes no other byte; a byte that was
never written reads as `RAM_INIT` of its address; RAM is not mirrored above its window (20_memory.md R53). The
window 0xC000 to 0xDFFF, and that nothing is mapped above it, are the spec's default map (D25), which the model
fixes (DESIGN CHOICE, log entry 9). -/
def Obligations.RamReadsGiveTheLastByteWritten : Prop :=
  ∀ (s : State) (a : Word) (v : Byte), 0xC000 ≤ a.toNat → a.toNat ≤ 0xDFFF →
    (∃ t, memWrite a v s = .ok () t ∧ memRead a t = .ok v t ∧ StoredByte s a v t) ∧
    (s.ram.get? a.toNat = none → memRead a s = .ok (Config.ramInit a.toNat) s) ∧
    (∃ x, memRead a s = .ok x s) ∧
    s.readByte (a + 0x2000) = none

/-- An address in neither window: a read, a write and an instruction fetch raise a bus fault with the address
and the access kind (20_memory.md R54). That these are the addresses from 0xE000 on is the spec's default map
(D25), which the model fixes (DESIGN CHOICE, log entry 9). -/
def Obligations.UnmappedAccessesRaiseBusFaults : Prop :=
  ∀ (s : State) (a : Word) (v : Byte), s.Running → 0xE000 ≤ a.toNat →
    memRead a s = .raised { s with fault := some (.busFault a .read s.pc) } ∧
    memWrite a v s = .raised { s with fault := some (.busFault a .write s.pc) } ∧
    (s.pc = a → step s = .next { s with fault := some (.busFault a .read a) })

/-- `next8` and `next16` read at PC, low byte first, and advance PC by the bytes read, modulo 65536; they
change no other register (20_memory.md R45). If the first byte cannot be read, they raise a bus fault with PC
unchanged; if the second byte of `next16` cannot be read, it raises with PC advanced by one, because `next16` is
two `next8`, which is the spec's decision D19 (log entry 11). -/
def Obligations.FetchHelpersReadAtPcAndAdvanceIt : Prop :=
  ∀ (s : State), s.Running →
    (∀ v, s.readByte s.pc = some v → next8 s = .ok v { s with pc := s.pc + 1 }) ∧
    (s.readByte s.pc = none → next8 s = .raised { s with fault := some (.busFault s.pc .read s.pc) }) ∧
    (∀ lo hi, s.readByte s.pc = some lo → s.readByte (s.pc + 1) = some hi →
      next16 s = .ok (hi ++ lo) { s with pc := s.pc + 2 }) ∧
    (s.readByte s.pc = none → next16 s = .raised { s with fault := some (.busFault s.pc .read s.pc) }) ∧
    (∀ lo, s.readByte s.pc = some lo → s.readByte (s.pc + 1) = none →
      next16 s = .raised { s with
        pc := s.pc + 1, fault := some (.busFault (s.pc + 1) .read (s.pc + 1)) })

/-- A store is seen by the very next fetch from its address, with nothing in between (20_memory.md R57). That
code may be fetched from RAM at all is the spec's decision D30 (log entry 11). -/
def Obligations.NextFetchSeesTheStore : Prop :=
  ∀ (s t : State) (a : Word) (v : Byte), memWrite a v s = .ok () t →
    next8 { t with pc := a } = .ok v { t with pc := a + 1 }

/-- PUSH and CALL push, POP and RET pop, through the same two helpers: whichever pushes, whichever pops gets
the value back and SP is restored; after the push the low byte stands at SP and the high byte above it
(41_load16_stack.md R106). -/
def Obligations.PushThenPopReturnsTheValue : Prop :=
  ∀ (s : State) (q q' : PairQq) (cc : Cond) (target : Word),
    inRam (s.sp - 1) = true → inRam (s.sp - 2) = true → cond cc s = true →
    (∃ t, exec (.push q) s = .next t ∧
      t.readByte t.sp = some (lowOf s q) ∧ t.readByte (t.sp + 1) = some (highOf s q) ∧
      exec (.pop q') t = .next (State.pairWrite { t with sp := s.sp } q'.reg16 (s.pairRead q.reg16)) ∧
      exec .ret t = .next { t with sp := s.sp, pc := s.pairRead q.reg16 }) ∧
    (∃ t, exec (.call cc target) s = .next t ∧
      exec (.pop q') t = .next (State.pairWrite { t with sp := s.sp } q'.reg16 s.pc) ∧
      exec .ret t = .next { t with sp := s.sp, pc := s.pc })

/-! ## 8-bit loads -/

/-- LD r,r' and LD r,n: the destination takes the byte, every other register and all else stays
(40_load8.md R80, R83, R91). -/
def Obligations.RegisterLoadsMoveOneByte : Prop :=
  ∀ (dst r : Reg8) (n : Byte) (s : State),
    (∃ t, exec (.ldReg dst r) s = .next t ∧ (∀ q, t.reg8 q = if q = dst then s.reg8 r else s.reg8 q) ∧
      t.withGeneral s = s) ∧
    (∃ t, exec (.ldImm dst n) s = .next t ∧ (∀ q, t.reg8 q = if q = dst then n else s.reg8 q) ∧
      t.withGeneral s = s)

/-- LD r,(HL), LD A,(BC), LD A,(DE), LD A,(nn): the destination takes the byte at the address, computed
before the register is written; an unreadable address raises and leaves the register (40_load8.md R81, R85, R86, R89). -/
def Obligations.MemoryLoadsReadOneByte : Prop :=
  ∀ (dst : Reg8) (nn : Word) (s : State) (v : Byte),
    (s.readByte (s.pairRead .hl) = some v → ∃ t, exec (.ldFromHl dst) s = .next t ∧
      (∀ q, t.reg8 q = if q = dst then v else s.reg8 q) ∧ t.withGeneral s = s) ∧
    (s.readByte (s.pairRead .bc) = some v → exec .ldAAtBc s = .next { s with a := v }) ∧
    (s.readByte (s.pairRead .de) = some v → exec .ldAAtDe s = .next { s with a := v }) ∧
    (s.readByte nn = some v → exec (.ldAAtNn nn) s = .next { s with a := v }) ∧
    (s.Running → s.readByte (s.pairRead .hl) = none → exec (.ldFromHl dst) s =
      .next { s with fault := some (.busFault (s.pairRead .hl) .read s.pc) }) ∧
    (s.Running → s.readByte (s.pairRead .bc) = none → exec .ldAAtBc s =
      .next { s with fault := some (.busFault (s.pairRead .bc) .read s.pc) }) ∧
    (s.Running → s.readByte (s.pairRead .de) = none → exec .ldAAtDe s =
      .next { s with fault := some (.busFault (s.pairRead .de) .read s.pc) }) ∧
    (s.Running → s.readByte nn = none → exec (.ldAAtNn nn) s =
      .next { s with fault := some (.busFault nn .read s.pc) })

/-- LD (HL),r; LD (HL),n; LD (BC),A; LD (DE),A; LD (nn),A into the RAM window: the byte is stored at the
address, every other byte of memory and every register stays (40_load8.md R82, R84, R87, R88, R90). -/
def Obligations.StoresWriteOneByteOfRam : Prop :=
  ∀ (r : Reg8) (n : Byte) (nn : Word) (s : State),
    (inRam (s.pairRead .hl) = true → ∃ t, exec (.ldToHl r) s = .next t ∧
      StoredByte s (s.pairRead .hl) (s.reg8 r) t) ∧
    (inRam (s.pairRead .hl) = true → ∃ t, exec (.ldAtHlN n) s = .next t ∧
      StoredByte s (s.pairRead .hl) n t) ∧
    (inRam (s.pairRead .bc) = true → ∃ t, exec .ldAtBcA s = .next t ∧ StoredByte s (s.pairRead .bc) s.a t) ∧
    (inRam (s.pairRead .de) = true → ∃ t, exec .ldAtDeA s = .next t ∧ StoredByte s (s.pairRead .de) s.a t) ∧
    (inRam nn = true → ∃ t, exec (.ldAtNnA nn) s = .next t ∧ StoredByte s nn s.a t)

/-- The same five store forms outside the RAM window, the ROM window included: nothing is written and a bus
fault is latched (70_reset_and_hazards.md R211, 20_memory.md R52, R54; that a ROM write faults is the spec's
decision D10). -/
def Obligations.StoresOutsideRamRaiseBusFaults : Prop :=
  ∀ (r : Reg8) (n : Byte) (nn : Word) (s : State), s.Running →
    (inRam (s.pairRead .hl) = false → exec (.ldToHl r) s =
      .next { s with fault := some (.busFault (s.pairRead .hl) .write s.pc) }) ∧
    (inRam (s.pairRead .hl) = false → exec (.ldAtHlN n) s =
      .next { s with fault := some (.busFault (s.pairRead .hl) .write s.pc) }) ∧
    (inRam (s.pairRead .bc) = false → exec .ldAtBcA s =
      .next { s with fault := some (.busFault (s.pairRead .bc) .write s.pc) }) ∧
    (inRam (s.pairRead .de) = false → exec .ldAtDeA s =
      .next { s with fault := some (.busFault (s.pairRead .de) .write s.pc) }) ∧
    (inRam nn = false → exec (.ldAtNnA nn) s = .next { s with fault := some (.busFault nn .write s.pc) })

/-! ## 16-bit loads and the stack -/

/-- LD dd,nn and LD SP,HL: the pair takes the value; no flag and no other register changes
(41_load16_stack.md R100, R101, R102). -/
def Obligations.PairLoadsMoveOneWord : Prop :=
  ∀ (p : PairDd) (nn : Word) (s : State),
    exec (.ldPair p nn) s = .next (s.pairWrite p.reg16 nn) ∧
    exec .ldSpHl s = .next { s with sp := s.h ++ s.l }

/-- PUSH qq with both stack bytes in RAM: SP is lower by two, the high register stands at SP - 1 and the low
one at SP - 2, and nothing else changes (41_load16_stack.md R104, 20_memory.md R46). -/
def Obligations.PushStoresThePairBelowSp : Prop :=
  ∀ (q : PairQq) (s : State), inRam (s.sp - 1) = true → inRam (s.sp - 2) = true →
    ∃ t, exec (.push q) s = .next t ∧ t.sp = s.sp - 2 ∧
      t.readByte (s.sp - 1) = some (highOf s q) ∧ t.readByte (s.sp - 2) = some (lowOf s q) ∧
      (∀ a, a ≠ s.sp - 1 → a ≠ s.sp - 2 → t.readByte a = s.readByte a) ∧
      { t with sp := s.sp, ram := s.ram } = s

/-- POP qq with both stack bytes readable, ROM included: the pair takes the word at SP, low byte first, SP is
higher by two, nothing else changes; POP AF takes all eight bits of F (41_load16_stack.md R105, 20_memory.md R47). -/
def Obligations.PopLoadsThePairAtSp : Prop :=
  ∀ (q : PairQq) (s : State) (lo hi : Byte),
    s.readByte s.sp = some lo → s.readByte (s.sp + 1) = some hi →
    exec (.pop q) s = .next (State.pairWrite { s with sp := s.sp + 2 } q.reg16 (hi ++ lo))

/-- What a stack transfer that faults has done by then stays done: SP keeps its decrements or increments, the
high byte of a push stays written, and the pair or PC is not written (60_exceptions.md R184, the rows of PUSH,
POP, RET and CALL; that nothing is rolled back is the spec's decision D8). -/
def Obligations.FaultingStackTransfersKeepPartialEffects : Prop :=
  ∀ (q : PairQq) (cc : Cond) (target : Word) (s : State), s.Running → cond cc s = true →
    (inRam (s.sp - 1) = false →
      exec (.push q) s =
        .next { s with sp := s.sp - 1, fault := some (.busFault (s.sp - 1) .write s.pc) } ∧
      exec (.call cc target) s =
        .next { s with sp := s.sp - 1, fault := some (.busFault (s.sp - 1) .write s.pc) }) ∧
    (inRam (s.sp - 1) = true → inRam (s.sp - 2) = false →
      (∃ t, exec (.push q) s =
          .next { t with sp := s.sp - 2, fault := some (.busFault (s.sp - 2) .write s.pc) } ∧
        StoredByte s (s.sp - 1) (highOf s q) t) ∧
      (∃ t, exec (.call cc target) s =
          .next { t with sp := s.sp - 2, fault := some (.busFault (s.sp - 2) .write s.pc) } ∧
        StoredByte s (s.sp - 1) (hiByte s.pc) t)) ∧
    (s.readByte s.sp = none →
      exec (.pop q) s = .next { s with fault := some (.busFault s.sp .read s.pc) } ∧
      exec .ret s = .next { s with fault := some (.busFault s.sp .read s.pc) }) ∧
    ((s.readByte s.sp).isSome = true → s.readByte (s.sp + 1) = none →
      exec (.pop q) s =
        .next { s with sp := s.sp + 1, fault := some (.busFault (s.sp + 1) .read s.pc) } ∧
      exec .ret s =
        .next { s with sp := s.sp + 1, fault := some (.busFault (s.sp + 1) .read s.pc) })

/-! ## Block copy -/

/-- "copy one byte from address HL to address DE; increment DE, increment HL, decrement BC (modular); no flag
effect", and a fault in either access leaves BC, DE and HL unchanged (42_block.md R110, by LDI). -/
def Obligations.LdiCopiesOneByte : Prop :=
  ∀ s : State,
    (∀ v, s.readByte (s.pairRead .hl) = some v → inRam (s.pairRead .de) = true →
      ∃ t, exec .ldi s = .next t ∧ t.readByte (s.pairRead .de) = some v ∧
        (∀ a, a ≠ s.pairRead .de → t.readByte a = s.readByte a) ∧
        t.pairRead .de = s.pairRead .de + 1 ∧ t.pairRead .hl = s.pairRead .hl + 1 ∧
        t.pairRead .bc = s.pairRead .bc - 1 ∧
        { t with b := s.b, c := s.c, d := s.d, e := s.e, h := s.h, l := s.l, ram := s.ram } = s) ∧
    (s.Running → s.readByte (s.pairRead .hl) = none →
      exec .ldi s = .next { s with fault := some (.busFault (s.pairRead .hl) .read s.pc) }) ∧
    (s.Running → (s.readByte (s.pairRead .hl)).isSome = true → inRam (s.pairRead .de) = false →
      exec .ldi s = .next { s with fault := some (.busFault (s.pairRead .de) .write s.pc) })

/-- One repetition of LDIR is one LDI, and then PC goes back by two iff BC is not zero afterward: it stays iff
BC was 1, and with BC = 0 on entry the byte is copied, BC becomes 0xFFFF and PC goes back (42_block.md R112,
R114; the case BC = 0 is the spec's decision D14). A fault leaves PC past the instruction. -/
def Obligations.LdirCopiesOneByteAndRepeats : Prop :=
  ∀ s : State,
    (∀ v, s.readByte (s.pairRead .hl) = some v → inRam (s.pairRead .de) = true →
      ∃ t, exec .ldir s = .next t ∧ t.readByte (s.pairRead .de) = some v ∧
        (∀ a, a ≠ s.pairRead .de → t.readByte a = s.readByte a) ∧
        t.pairRead .de = s.pairRead .de + 1 ∧ t.pairRead .hl = s.pairRead .hl + 1 ∧
        t.pairRead .bc = s.pairRead .bc - 1 ∧
        t.pc = (if s.pairRead .bc = 1 then s.pc else s.pc - 2) ∧
        { t with b := s.b, c := s.c, d := s.d, e := s.e, h := s.h, l := s.l, ram := s.ram, pc := s.pc } = s) ∧
    (s.Running → s.readByte (s.pairRead .hl) = none →
      exec .ldir s = .next { s with fault := some (.busFault (s.pairRead .hl) .read s.pc) }) ∧
    (s.Running → (s.readByte (s.pairRead .hl)).isSome = true → inRam (s.pairRead .de) = false →
      exec .ldir s = .next { s with fault := some (.busFault (s.pairRead .de) .write s.pc) })

/-- An LDIR with BC = n > 0 whose source is readable, whose destination lies in RAM, and whose destination
overlaps neither its source nor its own two bytes, performs exactly n steps, one byte each; then BC = 0, DE and
HL are advanced by n, PC is past the instruction, the n bytes are copied, and no other byte, no flag and no
other register has changed (42_block.md R112, R113). -/
def Obligations.LdirCopiesABlockInOneStepPerByte : Prop :=
  ∀ (s : State) (n : Nat), s.Running → CodeAt s [0xED, 0xB0] → (s.pairRead .bc).toNat = n → 0 < n →
    (∀ k, k < n → (s.readByte (s.pairRead .hl + BitVec.ofNat 16 k)).isSome = true) →
    (∀ k, k < n → inRam (s.pairRead .de + BitVec.ofNat 16 k) = true) →
    (∀ j k, j < n → k < n → s.pairRead .hl + BitVec.ofNat 16 j ≠ s.pairRead .de + BitVec.ofNat 16 k) →
    (∀ k, k < n → s.pc ≠ s.pairRead .de + BitVec.ofNat 16 k ∧ s.pc + 1 ≠ s.pairRead .de + BitVec.ofNat 16 k) →
    ∃ t, runs n s t ∧ t.pc = s.pc + 2 ∧ t.pairRead .bc = 0 ∧
      t.pairRead .de = s.pairRead .de + BitVec.ofNat 16 n ∧
      t.pairRead .hl = s.pairRead .hl + BitVec.ofNat 16 n ∧
      (∀ k, k < n → t.readByte (s.pairRead .de + BitVec.ofNat 16 k) =
        s.readByte (s.pairRead .hl + BitVec.ofNat 16 k)) ∧
      (∀ a, (∀ k, k < n → a ≠ s.pairRead .de + BitVec.ofNat 16 k) → t.readByte a = s.readByte a) ∧
      { t with b := s.b, c := s.c, d := s.d, e := s.e, h := s.h, l := s.l, ram := s.ram, pc := s.pc } = s

/-! ## 8-bit logic and compare -/

/-- XOR s and OR s: A takes the bitwise result; S is bit 7 of it, Z that it is zero, P/V that its set-bit count
is even, H, N and C are cleared; the unnamed bits of F and everything else stay (43_alu8.md R120, R121; that the
unnamed bits stay is the spec's decision D4, log entry 11). -/
def Obligations.LogicSetsAccumulatorAndFlags : Prop :=
  ∀ (op : LogicOp) (src : AluSrc) (s : State) (v : Byte), aluValue s src = some v →
    ∃ t, exec (.logic op src) s = .next t ∧
      t.a = (match op with | .xor => s.a ^^^ v | .or => s.a ||| v) ∧
      flagTest .s t.f = t.a.getLsbD 7 ∧ flagTest .z t.f = decide (t.a = 0) ∧ flagTest .h t.f = false ∧
      flagTest .pv t.f = decide (((List.range 8).filter fun k => t.a.getLsbD k).length % 2 = 0) ∧
      flagTest .n t.f = false ∧ flagTest .c t.f = false ∧
      t.f.getLsbD 5 = s.f.getLsbD 5 ∧ t.f.getLsbD 3 = s.f.getLsbD 3 ∧
      { t with a := s.a, f := s.f } = s

/-- The flags of `a - b - cin`, for both values of the carry-in (no instruction passes 1): S is bit 7 of the
result, Z that it is zero, H the borrow out of the low nibble, C the unsigned borrow, N is set, P/V compares the
signs of the operands and the result; the unnamed bits stay (43_alu8.md R122). And CP s leaves in F exactly the
flags of A - s with no carry-in, and changes nothing else. The formula of P/V is R124's, the spec's decision D6, and
that the unnamed bits stay is its decision D4 (both log entry 11). -/
def Obligations.CompareSetsTheFlagsOfTheDifference : Prop :=
  (∀ (a b f : Byte) (cin : Bool),
    let res := a - b - BitVec.ofNat 8 cin.toNat
    let f' := subcFlags a b cin f
    flagTest .s f' = res.getLsbD 7 ∧ flagTest .z f' = decide (res = 0) ∧
    flagTest .h f' = decide (a.toNat % 16 < b.toNat % 16 + cin.toNat) ∧
    flagTest .pv f' = decide (a.getLsbD 7 ≠ b.getLsbD 7 ∧ res.getLsbD 7 ≠ a.getLsbD 7) ∧
    flagTest .n f' = true ∧ flagTest .c f' = decide (a.toNat < b.toNat + cin.toNat) ∧
    f'.getLsbD 5 = f.getLsbD 5 ∧ f'.getLsbD 3 = f.getLsbD 3) ∧
  (∀ (src : AluSrc) (s : State) (v : Byte), aluValue s src = some v →
    exec (.cpS src) s = .next { s with f := subcFlags s.a v false s.f })

/-- P/V after a subtraction is signed overflow: it is set iff the exact signed difference lies outside
-128..127 (43_alu8.md R124; that P/V is signed overflow is the spec's decision D6). -/
def Obligations.CompareOverflowIsSignedOverflow : Prop :=
  ∀ (a b f : Byte) (cin : Bool),
    flagTest .pv (subcFlags a b cin f) =
      decide (a.toInt - b.toInt - cin.toNat < -128 ∨ 127 < a.toInt - b.toInt - cin.toNat)

/-- XOR (HL), OR (HL) and CP (HL) at an unreadable address: A and F are untouched (43_alu8.md R126, R129, R132). -/
def Obligations.UnreadableAluOperandLeavesAccumulatorAndFlags : Prop :=
  ∀ (op : LogicOp) (s : State), s.Running → s.readByte (s.pairRead .hl) = none →
    exec (.logic op .atHl) s = .next { s with fault := some (.busFault (s.pairRead .hl) .read s.pc) } ∧
    exec (.cpS .atHl) s = .next { s with fault := some (.busFault (s.pairRead .hl) .read s.pc) }

/-- The identities of 43_alu8.md R135: XOR A clears A and leaves Z and P/V set and the other flags clear; CP of
equal operands leaves Z and N set and S, H, P/V and C clear; OR A keeps A, sets S, Z and P/V from it and clears H, N
and C; CP 0 never sets C, H or P/V, and sets Z and S from A; after CP, Z says A = v and C says A < v. The value of
P/V after CP rests on the spec's decision D6 (log entry 11). -/
def Obligations.LogicAndCompareIdentities : Prop :=
  ∀ (s : State) (src : AluSrc) (v : Byte),
    (∃ t, exec .xorA s = .next t ∧ t.a = 0 ∧ flagTest .z t.f = true ∧ flagTest .pv t.f = true ∧
      flagTest .s t.f = false ∧ flagTest .h t.f = false ∧ flagTest .n t.f = false ∧ flagTest .c t.f = false) ∧
    (∃ t, exec .orA s = .next t ∧ t.a = s.a ∧ flagTest .z t.f = decide (s.a = 0) ∧
      flagTest .s t.f = s.a.getLsbD 7 ∧ flagTest .pv t.f = parityEven s.a ∧
      flagTest .h t.f = false ∧ flagTest .n t.f = false ∧ flagTest .c t.f = false) ∧
    (∃ t, exec (.cpN 0) s = .next t ∧ flagTest .c t.f = false ∧ flagTest .h t.f = false ∧
      flagTest .pv t.f = false ∧ flagTest .z t.f = decide (s.a = 0) ∧ flagTest .s t.f = s.a.getLsbD 7) ∧
    (aluValue s src = some v → ∃ t, exec (.cpS src) s = .next t ∧ t.a = s.a ∧
      flagTest .z t.f = decide (s.a = v) ∧ flagTest .c t.f = decide (s.a.toNat < v.toNat) ∧
      (v = s.a → flagTest .s t.f = false ∧ flagTest .h t.f = false ∧ flagTest .pv t.f = false ∧
        flagTest .n t.f = true))

/-! ## 16-bit arithmetic -/

/-- ADD HL,ss: HL takes the sum modulo 65536, H the carry out of bit 11, C the carry out of bit 15, N is cleared;
S, Z, P/V, the unnamed bits and everything else stay, SP too when it is the source (44_alu16.md R140; that the
unnamed bits stay is the spec's decision D4, log entry 11). -/
def Obligations.AddHlSetsSumAndCarries : Prop :=
  ∀ (p : PairDd) (s : State),
    ∃ t, exec (.addHl p) s = .next t ∧
      t.pairRead .hl = s.pairRead .hl + s.pairRead p.reg16 ∧
      flagTest .h t.f =
        decide (0x0FFF < (s.pairRead .hl).toNat % 0x1000 + (s.pairRead p.reg16).toNat % 0x1000) ∧
      flagTest .c t.f = decide (0xFFFF < (s.pairRead .hl).toNat + (s.pairRead p.reg16).toNat) ∧
      flagTest .n t.f = false ∧ flagTest .s t.f = flagTest .s s.f ∧ flagTest .z t.f = flagTest .z s.f ∧
      flagTest .pv t.f = flagTest .pv s.f ∧
      t.f.getLsbD 5 = s.f.getLsbD 5 ∧ t.f.getLsbD 3 = s.f.getLsbD 3 ∧
      { t with h := s.h, l := s.l, f := s.f } = s

/-- INC ss and DEC ss: plus or minus one modulo 65536, with no flag and nothing else changed
(44_alu16.md R141, R142). -/
def Obligations.IncAndDecChangeThePairByOne : Prop :=
  ∀ (p : PairDd) (s : State),
    exec (.incPair p) s =
      .next (s.pairWrite p.reg16 (BitVec.ofNat 16 ((s.pairRead p.reg16).toNat + 1))) ∧
    exec (.decPair p) s =
      .next (s.pairWrite p.reg16 (BitVec.ofNat 16 ((s.pairRead p.reg16).toNat + 65535)))

/-! ## Control transfer -/

/-- Each condition is the value of one flag bit of F, or always true (45_control.md R150; PO, PE, P and M are the
spec's decision D5, the positions its decision D3, both PRESUMED, log entry 10). -/
def Obligations.ConditionsReadOneFlagBit : Prop :=
  ∀ s : State,
    cond .always s = true ∧
    cond .nz s = !s.f.getLsbD 6 ∧ cond .z s = s.f.getLsbD 6 ∧
    cond .nc s = !s.f.getLsbD 0 ∧ cond .c s = s.f.getLsbD 0 ∧
    cond .po s = !s.f.getLsbD 2 ∧ cond .pe s = s.f.getLsbD 2 ∧
    cond .p s = !s.f.getLsbD 7 ∧ cond .m s = s.f.getLsbD 7

/-- JP: "set PC to the target iff the condition holds, otherwise leave PC at the already-advanced post-fetch
value"; the target of JP (HL) is HL itself, and no memory is read; nothing but PC changes (45_control.md R151). -/
def Obligations.JumpsSetPcIffTheConditionHolds : Prop :=
  ∀ (cc : Cond) (target : Word) (s : State),
    (cond cc s = true → exec (.jp cc target) s = .next { s with pc := target }) ∧
    (cond cc s = false → exec (.jp cc target) s = .next s) ∧
    exec .jpAtHl s = .next { s with pc := s.h ++ s.l }

/-- JR: if the condition holds, PC takes its value past the displacement byte plus the signed displacement, modulo
65536; otherwise it stays; nothing else changes (45_control.md R156, R157). -/
def Obligations.RelativeJumpsAddTheSignedDisplacement : Prop :=
  ∀ (cc : JrCond) (e : Byte) (s : State),
    (cond cc.cond s = true → ∃ target : Word,
      exec (.jr cc e) s = .next { s with pc := target } ∧
      (target.toNat : Int) = ((s.pc.toNat : Int) + e.toInt) % 65536) ∧
    (cond cc.cond s = false → exec (.jr cc e) s = .next s)

/-- CALL with the condition true and both stack bytes in RAM: the return address, the PC past the instruction, is
pushed little-endian, then PC takes the target; with the condition false nothing is pushed and nothing changes; the
return address stands in no register (45_control.md R152). -/
def Obligations.CallsPushTheReturnAddress : Prop :=
  ∀ (cc : Cond) (target : Word) (s : State),
    (cond cc s = true → inRam (s.sp - 1) = true → inRam (s.sp - 2) = true →
      ∃ t, exec (.call cc target) s = .next t ∧ t.pc = target ∧ t.sp = s.sp - 2 ∧
        (∃ lo hi, t.readByte (s.sp - 2) = some lo ∧ t.readByte (s.sp - 1) = some hi ∧ hi ++ lo = s.pc) ∧
        (∀ a, a ≠ s.sp - 1 → a ≠ s.sp - 2 → t.readByte a = s.readByte a) ∧
        { t with sp := s.sp, ram := s.ram, pc := s.pc } = s) ∧
    (cond cc s = false → exec (.call cc target) s = .next s)

/-- RET: "pop a 16-bit value into PC unconditionally", SP higher by two, nothing else changed (45_control.md R160). -/
def Obligations.ReturnPopsPc : Prop :=
  ∀ (s : State) (lo hi : Byte), s.readByte s.sp = some lo → s.readByte (s.sp + 1) = some hi →
    exec .ret s = .next { s with sp := s.sp + 2, pc := hi ++ lo }

/-! ## Interrupt control, output, reset -/

/-- DI clears both flip-flops whatever they were; IM m stores m; neither changes anything else (46_system_io.md
R170, R171). -/
def Obligations.InterruptControlWritesOnlyItsOwnState : Prop :=
  ∀ (m : IntMode) (s : State),
    exec .di s = .next { s with iff1 := false, iff2 := false } ∧ exec (.im m) s = .next { s with im := m }

/-- OUT (n),A writes A to port n and OUT (C),r writes r to port C: one pair is appended to the port writes, nothing
else changes, and it never fails; the console receives it iff the port is 0xFD (46_system_io.md R174, R172, R173,
20_memory.md R58; 0xFD is the default of the spec's parameter DIAG_PORT, log entry 9). -/
def Obligations.OutAppendsOnePortWrite : Prop :=
  ∀ (n : Byte) (r : Reg8) (s : State),
    exec (.outAtNA n) s = .next { s with ports := s.ports ++ [⟨n, s.a⟩] } ∧
    exec (.outToC r) s = .next { s with ports := s.ports ++ [⟨s.c, s.reg8 r⟩] } ∧
    (∀ p v, State.console { s with ports := s.ports ++ [⟨p, v⟩] } =
      s.console ++ if p = 0xFD then [v] else [])

/-- After reset every register, flag and flip-flop is zero, IM is 0 and FAULT is none, from every state, a faulted
one too; the cartridge is unaffected and every byte of RAM reads as RAM_INIT (70_reset_and_hazards.md R200 to R202,
10_state.md R32; the zeros are the spec's decision D7; that the port writes stay is the model's reading, log entry 5). -/
def Obligations.ResetZeroesTheCore : Prop :=
  ∀ (s : State) (a : Word),
    { s.applyReset with cart := [], ports := [] } = State.reset ∧
    s.applyReset.cart = s.cart ∧ s.applyReset.ports = s.ports ∧
    (inRam a = true → s.applyReset.readByte a = some (Config.ramInit a.toNat)) ∧
    State.reset.pairRead .af = 0 ∧ State.reset.pairRead .bc = 0 ∧ State.reset.pairRead .de = 0 ∧
    State.reset.pairRead .hl = 0 ∧ State.reset.sp = 0 ∧ State.reset.pc = 0 ∧
    State.reset.a' = 0 ∧ State.reset.f' = 0 ∧ State.reset.b' = 0 ∧ State.reset.c' = 0 ∧
    State.reset.d' = 0 ∧ State.reset.e' = 0 ∧ State.reset.h' = 0 ∧ State.reset.l' = 0 ∧
    State.reset.ix = 0 ∧ State.reset.iy = 0 ∧ State.reset.i = 0 ∧ State.reset.r = 0 ∧
    State.reset.iff1 = false ∧ State.reset.iff2 = false ∧ State.reset.im = .im0 ∧ State.reset.fault = none

/-- The boot hazard: with SP at its reset value the first PUSH or taken CALL decrements SP to 0xFFFF and faults
there (70_reset_and_hazards.md R204). That the reset SP is zero is the spec's decision D7 (log entry 11), and that
0xFFFF is unmapped is its default map (D25), which the model fixes (DESIGN CHOICE, log entry 9). -/
def Obligations.FirstPushWithResetSpFaults : Prop :=
  ∀ (s : State) (q : PairQq) (cc : Cond) (target : Word), s.Running → s.sp = State.reset.sp →
    exec (.push q) s = .next { s with sp := 0xFFFF, fault := some (.busFault 0xFFFF .write s.pc) } ∧
    (cond cc s = true → exec (.call cc target) s =
      .next { s with sp := 0xFFFF, fault := some (.busFault 0xFFFF .write s.pc) })
end

