-- ==== Sys2Proof/Laws/Bits.lean ====
section
/-! SUPPORT. Bytes of a word, and named bits of a byte. -/

namespace Sys2Proof.Machine

theorem joinBytes_toNat (hi lo : Byte) : (joinBytes hi lo).toNat = 256 * hi.toNat + lo.toNat := by
  have h : (joinBytes hi lo).toNat = hi.toNat <<< 8 ||| lo.toNat := BitVec.toNat_append hi lo
  rw [h, ← Nat.shiftLeft_add_eq_or_of_lt lo.isLt, Nat.shiftLeft_eq]
  omega

theorem hiByte_toNat (w : Word) : (hiByte w).toNat = w.toNat / 256 := by
  have := w.isLt
  simp only [hiByte, BitVec.extractLsb'_toNat, Nat.shiftRight_eq_div_pow]
  omega

theorem loByte_toNat (w : Word) : (loByte w).toNat = w.toNat % 256 := by
  simp [loByte, BitVec.extractLsb'_toNat]

@[simp] theorem hiByte_joinBytes (hi lo : Byte) : hiByte (joinBytes hi lo) = hi := by
  apply BitVec.eq_of_toNat_eq
  have := lo.isLt
  rw [hiByte_toNat, joinBytes_toNat]
  omega

@[simp] theorem loByte_joinBytes (hi lo : Byte) : loByte (joinBytes hi lo) = lo := by
  apply BitVec.eq_of_toNat_eq
  have := lo.isLt
  rw [loByte_toNat, joinBytes_toNat]
  omega

@[simp] theorem joinBytes_hiByte_loByte (w : Word) : joinBytes (hiByte w) (loByte w) = w := by
  apply BitVec.eq_of_toNat_eq
  rw [joinBytes_toNat, hiByte_toNat, loByte_toNat]
  omega

theorem Flag.bit_injective (x y : Flag) : x.bit = y.bit ↔ x = y := by
  cases x <;> cases y <;> decide

/-- `flag_set` writes one bit and leaves the other seven (10_state.md R19). -/
theorem getLsbD_flagSet (x : Flag) (v : Bool) (f : Byte) (n : Nat) (hn : n < 8) :
    (flagSet x v f).getLsbD n = if n = x.bit then v else f.getLsbD n := by
  have hx : x.bit < 8 := by cases x <;> decide
  rcases Nat.lt_trichotomy n x.bit with h | h | h
  · have h1 : n ≠ x.bit := by omega
    have h2 : n - x.bit = 0 := by omega
    cases v <;> simp [flagSet, h, h1, hn]
  · subst h
    cases v <;> simp [flagSet, hn]
  · have h1 : n ≠ x.bit := by omega
    have h2 : n - x.bit ≠ 0 := by omega
    cases v <;> simp [flagSet, h1, h2, hn]

theorem flagTest_flagSet (x y : Flag) (v : Bool) (f : Byte) :
    flagTest y (flagSet x v f) = if y = x then v else flagTest y f := by
  have hy : y.bit < 8 := by cases y <;> decide
  simp only [flagTest, getLsbD_flagSet x v f y.bit hy, Flag.bit_injective]

@[simp] theorem flagTest_flagSet_self (x : Flag) (v : Bool) (f : Byte) : flagTest x (flagSet x v f) = v := by
  simp [flagTest_flagSet]

theorem flagTest_flagSet_of_ne {x y : Flag} (h : y ≠ x) (v : Bool) (f : Byte) :
    flagTest y (flagSet x v f) = flagTest y f := by
  simp [flagTest_flagSet, h]

/-- No flag has bit 5 or bit 3 of F: `flag_set` keeps the two unnamed bits (10_state.md R19). -/
theorem flagSet_unnamed (x : Flag) (v : Bool) (f : Byte) :
    (flagSet x v f).getLsbD 5 = f.getLsbD 5 ∧ (flagSet x v f).getLsbD 3 = f.getLsbD 3 := by
  constructor <;> (rw [getLsbD_flagSet _ _ _ _ (by decide)]; cases x <;> rfl)

end Sys2Proof.Machine
end

