-- ==== Sys2Proof/Laws/State.lean ====
section
/-! SUPPORT. What each update of the state does to each field, so that no later proof unfolds one. -/

namespace Sys2Proof.Machine.State

variable (s : State) (v : Word) (x : Byte) (q : Reg8) (p : Reg16) (k : Word → Fault)

@[simp] theorem setPc_a : (s.setPc v).a = s.a := rfl
@[simp] theorem setPc_f : (s.setPc v).f = s.f := rfl
@[simp] theorem setPc_b : (s.setPc v).b = s.b := rfl
@[simp] theorem setPc_c : (s.setPc v).c = s.c := rfl
@[simp] theorem setPc_d : (s.setPc v).d = s.d := rfl
@[simp] theorem setPc_e : (s.setPc v).e = s.e := rfl
@[simp] theorem setPc_h : (s.setPc v).h = s.h := rfl
@[simp] theorem setPc_l : (s.setPc v).l = s.l := rfl
@[simp] theorem setPc_aShadow : (s.setPc v).a' = s.a' := rfl
@[simp] theorem setPc_fShadow : (s.setPc v).f' = s.f' := rfl
@[simp] theorem setPc_bShadow : (s.setPc v).b' = s.b' := rfl
@[simp] theorem setPc_cShadow : (s.setPc v).c' = s.c' := rfl
@[simp] theorem setPc_dShadow : (s.setPc v).d' = s.d' := rfl
@[simp] theorem setPc_eShadow : (s.setPc v).e' = s.e' := rfl
@[simp] theorem setPc_hShadow : (s.setPc v).h' = s.h' := rfl
@[simp] theorem setPc_lShadow : (s.setPc v).l' = s.l' := rfl
@[simp] theorem setPc_ix : (s.setPc v).ix = s.ix := rfl
@[simp] theorem setPc_iy : (s.setPc v).iy = s.iy := rfl
@[simp] theorem setPc_i : (s.setPc v).i = s.i := rfl
@[simp] theorem setPc_r : (s.setPc v).r = s.r := rfl
@[simp] theorem setPc_sp : (s.setPc v).sp = s.sp := rfl
@[simp] theorem setPc_pc : (s.setPc v).pc = v := rfl
@[simp] theorem setPc_iff1 : (s.setPc v).iff1 = s.iff1 := rfl
@[simp] theorem setPc_iff2 : (s.setPc v).iff2 = s.iff2 := rfl
@[simp] theorem setPc_im : (s.setPc v).im = s.im := rfl
@[simp] theorem setPc_fault : (s.setPc v).fault = s.fault := rfl
@[simp] theorem setPc_cart : (s.setPc v).cart = s.cart := rfl
@[simp] theorem setPc_ram : (s.setPc v).ram = s.ram := rfl
@[simp] theorem setPc_ports : (s.setPc v).ports = s.ports := rfl

@[simp] theorem setSp_a : (s.setSp v).a = s.a := rfl
@[simp] theorem setSp_f : (s.setSp v).f = s.f := rfl
@[simp] theorem setSp_b : (s.setSp v).b = s.b := rfl
@[simp] theorem setSp_c : (s.setSp v).c = s.c := rfl
@[simp] theorem setSp_d : (s.setSp v).d = s.d := rfl
@[simp] theorem setSp_e : (s.setSp v).e = s.e := rfl
@[simp] theorem setSp_h : (s.setSp v).h = s.h := rfl
@[simp] theorem setSp_l : (s.setSp v).l = s.l := rfl
@[simp] theorem setSp_aShadow : (s.setSp v).a' = s.a' := rfl
@[simp] theorem setSp_fShadow : (s.setSp v).f' = s.f' := rfl
@[simp] theorem setSp_bShadow : (s.setSp v).b' = s.b' := rfl
@[simp] theorem setSp_cShadow : (s.setSp v).c' = s.c' := rfl
@[simp] theorem setSp_dShadow : (s.setSp v).d' = s.d' := rfl
@[simp] theorem setSp_eShadow : (s.setSp v).e' = s.e' := rfl
@[simp] theorem setSp_hShadow : (s.setSp v).h' = s.h' := rfl
@[simp] theorem setSp_lShadow : (s.setSp v).l' = s.l' := rfl
@[simp] theorem setSp_ix : (s.setSp v).ix = s.ix := rfl
@[simp] theorem setSp_iy : (s.setSp v).iy = s.iy := rfl
@[simp] theorem setSp_i : (s.setSp v).i = s.i := rfl
@[simp] theorem setSp_r : (s.setSp v).r = s.r := rfl
@[simp] theorem setSp_sp : (s.setSp v).sp = v := rfl
@[simp] theorem setSp_pc : (s.setSp v).pc = s.pc := rfl
@[simp] theorem setSp_iff1 : (s.setSp v).iff1 = s.iff1 := rfl
@[simp] theorem setSp_iff2 : (s.setSp v).iff2 = s.iff2 := rfl
@[simp] theorem setSp_im : (s.setSp v).im = s.im := rfl
@[simp] theorem setSp_fault : (s.setSp v).fault = s.fault := rfl
@[simp] theorem setSp_cart : (s.setSp v).cart = s.cart := rfl
@[simp] theorem setSp_ram : (s.setSp v).ram = s.ram := rfl
@[simp] theorem setSp_ports : (s.setSp v).ports = s.ports := rfl

@[simp] theorem setReg8_f : (s.setReg8 q x).f = s.f := by cases q <;> rfl
@[simp] theorem setReg8_aShadow : (s.setReg8 q x).a' = s.a' := by cases q <;> rfl
@[simp] theorem setReg8_fShadow : (s.setReg8 q x).f' = s.f' := by cases q <;> rfl
@[simp] theorem setReg8_bShadow : (s.setReg8 q x).b' = s.b' := by cases q <;> rfl
@[simp] theorem setReg8_cShadow : (s.setReg8 q x).c' = s.c' := by cases q <;> rfl
@[simp] theorem setReg8_dShadow : (s.setReg8 q x).d' = s.d' := by cases q <;> rfl
@[simp] theorem setReg8_eShadow : (s.setReg8 q x).e' = s.e' := by cases q <;> rfl
@[simp] theorem setReg8_hShadow : (s.setReg8 q x).h' = s.h' := by cases q <;> rfl
@[simp] theorem setReg8_lShadow : (s.setReg8 q x).l' = s.l' := by cases q <;> rfl
@[simp] theorem setReg8_ix : (s.setReg8 q x).ix = s.ix := by cases q <;> rfl
@[simp] theorem setReg8_iy : (s.setReg8 q x).iy = s.iy := by cases q <;> rfl
@[simp] theorem setReg8_i : (s.setReg8 q x).i = s.i := by cases q <;> rfl
@[simp] theorem setReg8_r : (s.setReg8 q x).r = s.r := by cases q <;> rfl
@[simp] theorem setReg8_sp : (s.setReg8 q x).sp = s.sp := by cases q <;> rfl
@[simp] theorem setReg8_pc : (s.setReg8 q x).pc = s.pc := by cases q <;> rfl
@[simp] theorem setReg8_iff1 : (s.setReg8 q x).iff1 = s.iff1 := by cases q <;> rfl
@[simp] theorem setReg8_iff2 : (s.setReg8 q x).iff2 = s.iff2 := by cases q <;> rfl
@[simp] theorem setReg8_im : (s.setReg8 q x).im = s.im := by cases q <;> rfl
@[simp] theorem setReg8_fault : (s.setReg8 q x).fault = s.fault := by cases q <;> rfl
@[simp] theorem setReg8_cart : (s.setReg8 q x).cart = s.cart := by cases q <;> rfl
@[simp] theorem setReg8_ram : (s.setReg8 q x).ram = s.ram := by cases q <;> rfl
@[simp] theorem setReg8_ports : (s.setReg8 q x).ports = s.ports := by cases q <;> rfl

@[simp] theorem pairWrite_aShadow : (s.pairWrite p v).a' = s.a' := by cases p <;> rfl
@[simp] theorem pairWrite_fShadow : (s.pairWrite p v).f' = s.f' := by cases p <;> rfl
@[simp] theorem pairWrite_bShadow : (s.pairWrite p v).b' = s.b' := by cases p <;> rfl
@[simp] theorem pairWrite_cShadow : (s.pairWrite p v).c' = s.c' := by cases p <;> rfl
@[simp] theorem pairWrite_dShadow : (s.pairWrite p v).d' = s.d' := by cases p <;> rfl
@[simp] theorem pairWrite_eShadow : (s.pairWrite p v).e' = s.e' := by cases p <;> rfl
@[simp] theorem pairWrite_hShadow : (s.pairWrite p v).h' = s.h' := by cases p <;> rfl
@[simp] theorem pairWrite_lShadow : (s.pairWrite p v).l' = s.l' := by cases p <;> rfl
@[simp] theorem pairWrite_ix : (s.pairWrite p v).ix = s.ix := by cases p <;> rfl
@[simp] theorem pairWrite_iy : (s.pairWrite p v).iy = s.iy := by cases p <;> rfl
@[simp] theorem pairWrite_i : (s.pairWrite p v).i = s.i := by cases p <;> rfl
@[simp] theorem pairWrite_r : (s.pairWrite p v).r = s.r := by cases p <;> rfl
@[simp] theorem pairWrite_pc : (s.pairWrite p v).pc = s.pc := by cases p <;> rfl
@[simp] theorem pairWrite_iff1 : (s.pairWrite p v).iff1 = s.iff1 := by cases p <;> rfl
@[simp] theorem pairWrite_iff2 : (s.pairWrite p v).iff2 = s.iff2 := by cases p <;> rfl
@[simp] theorem pairWrite_im : (s.pairWrite p v).im = s.im := by cases p <;> rfl
@[simp] theorem pairWrite_fault : (s.pairWrite p v).fault = s.fault := by cases p <;> rfl
@[simp] theorem pairWrite_cart : (s.pairWrite p v).cart = s.cart := by cases p <;> rfl
@[simp] theorem pairWrite_ram : (s.pairWrite p v).ram = s.ram := by cases p <;> rfl
@[simp] theorem pairWrite_ports : (s.pairWrite p v).ports = s.ports := by cases p <;> rfl

@[simp] theorem raise_a : (s.raise k).a = s.a := by unfold raise; split <;> rfl
@[simp] theorem raise_f : (s.raise k).f = s.f := by unfold raise; split <;> rfl
@[simp] theorem raise_b : (s.raise k).b = s.b := by unfold raise; split <;> rfl
@[simp] theorem raise_c : (s.raise k).c = s.c := by unfold raise; split <;> rfl
@[simp] theorem raise_d : (s.raise k).d = s.d := by unfold raise; split <;> rfl
@[simp] theorem raise_e : (s.raise k).e = s.e := by unfold raise; split <;> rfl
@[simp] theorem raise_h : (s.raise k).h = s.h := by unfold raise; split <;> rfl
@[simp] theorem raise_l : (s.raise k).l = s.l := by unfold raise; split <;> rfl
@[simp] theorem raise_aShadow : (s.raise k).a' = s.a' := by unfold raise; split <;> rfl
@[simp] theorem raise_fShadow : (s.raise k).f' = s.f' := by unfold raise; split <;> rfl
@[simp] theorem raise_bShadow : (s.raise k).b' = s.b' := by unfold raise; split <;> rfl
@[simp] theorem raise_cShadow : (s.raise k).c' = s.c' := by unfold raise; split <;> rfl
@[simp] theorem raise_dShadow : (s.raise k).d' = s.d' := by unfold raise; split <;> rfl
@[simp] theorem raise_eShadow : (s.raise k).e' = s.e' := by unfold raise; split <;> rfl
@[simp] theorem raise_hShadow : (s.raise k).h' = s.h' := by unfold raise; split <;> rfl
@[simp] theorem raise_lShadow : (s.raise k).l' = s.l' := by unfold raise; split <;> rfl
@[simp] theorem raise_ix : (s.raise k).ix = s.ix := by unfold raise; split <;> rfl
@[simp] theorem raise_iy : (s.raise k).iy = s.iy := by unfold raise; split <;> rfl
@[simp] theorem raise_i : (s.raise k).i = s.i := by unfold raise; split <;> rfl
@[simp] theorem raise_r : (s.raise k).r = s.r := by unfold raise; split <;> rfl
@[simp] theorem raise_sp : (s.raise k).sp = s.sp := by unfold raise; split <;> rfl
@[simp] theorem raise_pc : (s.raise k).pc = s.pc := by unfold raise; split <;> rfl
@[simp] theorem raise_iff1 : (s.raise k).iff1 = s.iff1 := by unfold raise; split <;> rfl
@[simp] theorem raise_iff2 : (s.raise k).iff2 = s.iff2 := by unfold raise; split <;> rfl
@[simp] theorem raise_im : (s.raise k).im = s.im := by unfold raise; split <;> rfl
@[simp] theorem raise_cart : (s.raise k).cart = s.cart := by unfold raise; split <;> rfl
@[simp] theorem raise_ram : (s.raise k).ram = s.ram := by unfold raise; split <;> rfl
@[simp] theorem raise_ports : (s.raise k).ports = s.ports := by unfold raise; split <;> rfl

theorem raise_of_running (h : s.fault = none) : s.raise k = { s with fault := some (k s.pc) } := by
  simp [raise, h]

/-- A latched record is never replaced (60_exceptions.md R188). -/
theorem raise_of_faulted (r : Fault) (h : s.fault = some r) : s.raise k = s := by
  simp [raise, h]

theorem pairWrite_sp_of_ne (h : p ≠ .sp) : (s.pairWrite p v).sp = s.sp := by
  cases p <;> first | rfl | exact absurd rfl h

theorem pairWrite_f_of_ne (h : p ≠ .af) : (s.pairWrite p v).f = s.f := by
  cases p <;> first | rfl | exact absurd rfl h

/-! ## 8-bit registers and pairs -/

theorem reg8_setReg8 (r : Reg8) : (s.setReg8 q x).reg8 r = if r = q then x else s.reg8 r := by
  cases q <;> cases r <;> rfl

@[simp] theorem reg8_setReg8_self : (s.setReg8 q x).reg8 q = x := by cases q <;> rfl

@[simp] theorem reg8_setPc (r : Reg8) : (s.setPc v).reg8 r = s.reg8 r := by cases r <;> rfl

@[simp] theorem reg8_setSp (r : Reg8) : (s.setSp v).reg8 r = s.reg8 r := by cases r <;> rfl

@[simp] theorem pairRead_setPc : (s.setPc v).pairRead p = s.pairRead p := by cases p <;> rfl

@[simp] theorem pairRead_sp : s.pairRead .sp = s.sp := rfl

@[simp] theorem setPc_setPc (w : Word) : (s.setPc v).setPc w = s.setPc w := rfl

@[simp] theorem setSp_setSp (w : Word) : (s.setSp v).setSp w = s.setSp w := rfl

/-- Reading a pair after writing one: the same pair gives the value, disjoint pairs are unaffected. -/
@[simp] theorem pairRead_pairWrite_self : (s.pairWrite p v).pairRead p = v := by
  cases p <;> simp [pairWrite, pairRead]

theorem pairRead_pairWrite_of_ne (q : Reg16) (h : q ≠ p) : (s.pairWrite p v).pairRead q = s.pairRead q := by
  cases p <;> cases q <;> first | rfl | exact absurd rfl h

/-! ## What the Bus reads depends on the cartridge and on RAM alone -/

theorem readByte_congr {s t : State} (hc : t.cart = s.cart) (hr : t.ram = s.ram) (a : Word) :
    t.readByte a = s.readByte a := by
  unfold readByte; rw [hc, hr]

@[simp] theorem readByte_setPc (a : Word) : (s.setPc v).readByte a = s.readByte a := rfl

@[simp] theorem readByte_setSp (a : Word) : (s.setSp v).readByte a = s.readByte a := rfl

@[simp] theorem readByte_setReg8 (a : Word) : (s.setReg8 q x).readByte a = s.readByte a :=
  readByte_congr (by simp) (by simp) a

@[simp] theorem readByte_pairWrite (a : Word) : (s.pairWrite p v).readByte a = s.readByte a :=
  readByte_congr (by simp) (by simp) a

@[simp] theorem readByte_raise (a : Word) : (s.raise k).readByte a = s.readByte a :=
  readByte_congr (by simp) (by simp) a

end Sys2Proof.Machine.State
end

