-- ==== Sys2Proof/Laws/Memory.lean ====
section
/-! SUPPORT. RAM cells: reading after writing, and the canonical form. -/

namespace Sys2Proof.Machine.Memory

theorem get?_set_self (m : Memory) (a : Nat) (v : Byte) : (m.set a v).get? a = some v := by
  induction m with
  | nil => simp [set, get?]
  | cons cell m ih =>
    obtain ⟨b, w⟩ := cell
    unfold set
    split
    · simp [get?]
    · split
      · simp [get?]
      · next h => simpa [get?, h] using ih

theorem get?_set_of_ne (m : Memory) (a b : Nat) (v : Byte) (h : b ≠ a) : (m.set a v).get? b = m.get? b := by
  induction m with
  | nil => simp [set, get?, h]
  | cons cell m ih =>
    obtain ⟨c, w⟩ := cell
    unfold set
    split
    · simp [get?, h]
    · split
      · next hc => subst hc; simp [get?, h]
      · simp [get?, ih]

theorem wfFrom_set (m : Memory) (lo a : Nat) (v : Byte) (hm : m.wfFrom lo = true) (hlo : lo ≤ a)
    (hhi : a ≤ Config.ramHi) : (m.set a v).wfFrom lo = true := by
  induction m generalizing lo with
  | nil => simp [set, wfFrom, hlo, hhi]
  | cons cell m ih =>
    obtain ⟨b, w⟩ := cell
    simp only [wfFrom, Bool.and_eq_true, decide_eq_true_eq] at hm
    unfold set
    split
    · simp only [wfFrom, Bool.and_eq_true, decide_eq_true_eq]
      exact ⟨⟨hlo, hhi⟩, ⟨by omega, hm.1.2⟩, hm.2⟩
    · split
      · next h => subst h; simp [wfFrom, hm]
      · simp only [wfFrom, Bool.and_eq_true, decide_eq_true_eq]
        exact ⟨hm.1, ih (b + 1) hm.2 (by omega)⟩

/-- A write inside the RAM window keeps the canonical form. -/
theorem wf_set (m : Memory) (a : Nat) (v : Byte) (hm : m.wf = true) (hlo : Config.ramLo ≤ a)
    (hhi : a ≤ Config.ramHi) : (m.set a v).wf = true :=
  wfFrom_set m Config.ramLo a v hm hlo hhi

theorem wf_nil : Memory.wf [] = true := rfl

theorem wf_reset : State.reset.ram.wf = true := rfl

/-- Listed addresses of a canonical memory lie in the window. -/
theorem wfFrom_mono (m : Memory) (lo lo' : Nat) (h : lo' ≤ lo) (hm : m.wfFrom lo = true) : m.wfFrom lo' = true := by
  cases m with
  | nil => rfl
  | cons cell m =>
    simp only [wfFrom, Bool.and_eq_true, decide_eq_true_eq] at hm ⊢
    exact ⟨⟨by omega, hm.1.2⟩, hm.2⟩

theorem get?_below (m : Memory) (lo a : Nat) (hm : m.wfFrom lo = true) (h : a < lo) : m.get? a = none := by
  induction m generalizing lo with
  | nil => rfl
  | cons cell m ih =>
    obtain ⟨b, w⟩ := cell
    simp only [wfFrom, Bool.and_eq_true, decide_eq_true_eq] at hm
    have : a ≠ b := by omega
    simpa [get?, this] using ih (b + 1) hm.2 (by omega)

/-- Equal contents are equal data: two canonical memories that read alike are the same list. -/
theorem ext_of_wfFrom (m n : Memory) (lo : Nat) (hm : m.wfFrom lo = true) (hn : n.wfFrom lo = true)
    (h : ∀ a, m.get? a = n.get? a) : m = n := by
  induction m generalizing n lo with
  | nil =>
    cases n with
    | nil => rfl
    | cons cell n =>
      obtain ⟨b, w⟩ := cell
      simpa [get?] using h b
  | cons cell m ih =>
    obtain ⟨b, w⟩ := cell
    simp only [wfFrom, Bool.and_eq_true, decide_eq_true_eq] at hm
    cases n with
    | nil => simpa [get?] using h b
    | cons cell' n =>
      obtain ⟨c, x⟩ := cell'
      simp only [wfFrom, Bool.and_eq_true, decide_eq_true_eq] at hn
      have hbc : b = c := by
        rcases Nat.lt_trichotomy b c with hlt | heq | hgt
        · have hb := h b
          rw [get?, get?, if_pos rfl, if_neg (by omega), get?_below n (c + 1) b hn.2 (by omega)] at hb
          cases hb
        · exact heq
        · have hc := h c
          rw [get?, get?, if_pos rfl, if_neg (by omega), get?_below m (b + 1) c hm.2 (by omega)] at hc
          cases hc
      subst hbc
      have hw : w = x := by simpa [get?] using h b
      subst hw
      rw [ih n (b + 1) hm.2 hn.2]
      intro a
      by_cases hab : a = b
      · subst hab
        rw [get?_below m (a + 1) a hm.2 (by omega), get?_below n (a + 1) a hn.2 (by omega)]
      · simpa [get?, hab] using h a

end Sys2Proof.Machine.Memory
end

