-- ==== Sys2Proof/Laws/Bus.lean ====
section
/-! SUPPORT. Everything each Bus access, fetch helper and stack helper can do. -/

namespace Sys2Proof.Machine

variable {s : State} {a : Word} {v : Byte}

theorem inRam_iff : inRam a = true ↔ 0xC000 ≤ a.toNat ∧ a.toNat ≤ 0xDFFF := by
  unfold inRam Config.ramLo Config.ramHi
  rw [Bool.and_eq_true, decide_eq_true_eq, decide_eq_true_eq]

theorem inRom_iff : inRom a = true ↔ a.toNat ≤ 0xBFFF := by
  unfold inRom Config.romLo Config.romHi
  rw [Bool.and_eq_true, decide_eq_true_eq, decide_eq_true_eq]
  exact ⟨fun h => h.2, fun h => ⟨Nat.zero_le _, h⟩⟩

theorem inRom_of_inRam (h : inRam a = true) : inRom a = false := by
  rw [inRam_iff] at h
  rw [← Bool.not_eq_true, inRom_iff]
  omega

theorem readByte_isSome_of_inRam (s : State) (h : inRam a = true) : ∃ v, s.readByte a = some v := by
  simp [State.readByte, h, inRom_of_inRam h]

/-- A RAM byte that was never written reads as `RAM_INIT` (20_memory.md R53). -/
theorem readByte_unwritten (h : inRam a = true) (hm : s.ram.get? a.toNat = none) :
    s.readByte a = some (Config.ramInit a.toNat) := by
  simp [State.readByte, h, inRom_of_inRam h, hm]

/-! ## Single accesses -/

theorem memRead_some (h : s.readByte a = some v) : memRead a s = .ok v s := by
  simp [memRead, h]

theorem memRead_none (h : s.readByte a = none) : memRead a s = .raised (s.raise (.busFault a .read)) := by
  simp [memRead, h]

theorem memRead_cases (a : Word) (s : State) :
    (∃ v, s.readByte a = some v ∧ memRead a s = .ok v s) ∨
    (s.readByte a = none ∧ memRead a s = .raised (s.raise (.busFault a .read))) := by
  cases h : s.readByte a with
  | some v => exact .inl ⟨v, rfl, memRead_some h⟩
  | none => exact .inr ⟨rfl, memRead_none h⟩

theorem memWrite_inRam (h : inRam a = true) :
    memWrite a v s = .ok () { s with ram := s.ram.set a.toNat v } := by
  simp [memWrite, State.writeByte, h]

theorem memWrite_outside (h : inRam a = false) :
    memWrite a v s = .raised (s.raise (.busFault a .write)) := by
  simp [memWrite, State.writeByte, h]

theorem memWrite_cases (a : Word) (v : Byte) (s : State) :
    (inRam a = true ∧ memWrite a v s = .ok () { s with ram := s.ram.set a.toNat v }) ∨
    (inRam a = false ∧ memWrite a v s = .raised (s.raise (.busFault a .write))) := by
  cases h : inRam a with
  | true => exact .inl ⟨rfl, memWrite_inRam h⟩
  | false => exact .inr ⟨rfl, memWrite_outside h⟩

/-- Reading after a store into RAM: the stored byte at its address, every other byte as before. -/
theorem readByte_store (s : State) (v : Byte) (b : Word) (h : inRam a = true) :
    State.readByte { s with ram := s.ram.set a.toNat v } b = if b = a then some v else s.readByte b := by
  by_cases hb : b = a
  · subst hb
    simp [State.readByte, h, inRom_of_inRam h, Memory.get?_set_self]
  · have hne : b.toNat ≠ a.toNat := fun hh => hb (BitVec.eq_of_toNat_eq hh)
    simp [State.readByte, hb, Memory.get?_set_of_ne _ _ _ _ hne]

/-- A store into RAM keeps the canonical form. -/
theorem wf_store (s : State) (v : Byte) (h : inRam a = true) (hm : s.ram.wf = true) :
    (s.ram.set a.toNat v).wf = true := by
  simp only [inRam, Bool.and_eq_true, decide_eq_true_eq] at h
  exact Memory.wf_set _ _ _ hm h.1 h.2

/-! ## Fetch helpers -/

theorem next8_some (h : s.readByte s.pc = some v) : next8 s = .ok v (s.setPc (s.pc + 1)) := by
  simp [next8, memRead_some h, Res.andThen]

theorem next8_none (h : s.readByte s.pc = none) : next8 s = .raised (s.raise (.busFault s.pc .read)) := by
  simp [next8, memRead_none h, Res.andThen]

theorem next8_cases (s : State) :
    (∃ v, s.readByte s.pc = some v ∧ next8 s = .ok v (s.setPc (s.pc + 1))) ∨
    (s.readByte s.pc = none ∧ next8 s = .raised (s.raise (.busFault s.pc .read))) := by
  cases h : s.readByte s.pc with
  | some v => exact .inl ⟨v, rfl, next8_some h⟩
  | none => exact .inr ⟨rfl, next8_none h⟩

theorem next16_cases (s : State) :
    (∃ lo hi, s.readByte s.pc = some lo ∧ s.readByte (s.pc + 1) = some hi ∧
      next16 s = .ok (joinBytes hi lo) (s.setPc (s.pc + 1 + 1))) ∨
    (s.readByte s.pc = none ∧ next16 s = .raised (s.raise (.busFault s.pc .read))) ∨
    (∃ lo, s.readByte s.pc = some lo ∧ s.readByte (s.pc + 1) = none ∧
      next16 s = .raised ((s.setPc (s.pc + 1)).raise (.busFault (s.pc + 1) .read))) := by
  rcases next8_cases s with ⟨lo, hlo, hn⟩ | ⟨hlo, hn⟩
  · rcases next8_cases (s.setPc (s.pc + 1)) with ⟨hi, hhi, hn'⟩ | ⟨hhi, hn'⟩
    · refine .inl ⟨lo, hi, hlo, hhi, ?_⟩
      rw [next16, hn]
      show (next8 _).andThen _ = _
      rw [hn']
      rfl
    · refine .inr (.inr ⟨lo, hlo, hhi, ?_⟩)
      rw [next16, hn]
      show (next8 _).andThen _ = _
      rw [hn']
      rfl
  · exact .inr (.inl ⟨hlo, by rw [next16, hn]; rfl⟩)

/-! ## Stack helpers -/

/-- `push16` with both bytes in RAM; with the first write outside; with the second outside (20_memory.md R46). -/
theorem push16_cases (w : Word) (s : State) :
    (inRam (s.sp - 1) = true ∧ inRam (s.sp - 1 - 1) = true ∧
      push16 w s = .ok () { s with
        sp := s.sp - 1 - 1
        ram := (s.ram.set (s.sp - 1).toNat (hiByte w)).set (s.sp - 1 - 1).toNat (loByte w) }) ∨
    (inRam (s.sp - 1) = false ∧
      push16 w s = .raised ((s.setSp (s.sp - 1)).raise (.busFault (s.sp - 1) .write))) ∨
    (inRam (s.sp - 1) = true ∧ inRam (s.sp - 1 - 1) = false ∧
      push16 w s = .raised (State.raise
        { s with sp := s.sp - 1 - 1, ram := s.ram.set (s.sp - 1).toNat (hiByte w) }
        (.busFault (s.sp - 1 - 1) .write))) := by
  cases h1 : inRam (s.sp - 1) with
  | false =>
    refine .inr (.inl ⟨rfl, ?_⟩)
    have := memWrite_outside (v := hiByte w) (s := s.setSp (s.sp - 1)) h1
    simp only [push16, State.setSp_sp, this, Res.andThen]
  | true =>
    cases h2 : inRam (s.sp - 1 - 1) with
    | true =>
      refine .inl ⟨rfl, rfl, ?_⟩
      simp only [push16, State.setSp, memWrite_inRam h1, Res.andThen, memWrite_inRam h2]
    | false =>
      refine .inr (.inr ⟨rfl, rfl, ?_⟩)
      simp only [push16, State.setSp, memWrite_inRam h1, Res.andThen, memWrite_outside h2]

/-- `pop16` with both bytes readable; with the first not; with the second not (20_memory.md R47). -/
theorem pop16_cases (s : State) :
    (∃ lo hi, s.readByte s.sp = some lo ∧ s.readByte (s.sp + 1) = some hi ∧
      pop16 s = .ok (joinBytes hi lo) (s.setSp (s.sp + 1 + 1))) ∨
    (s.readByte s.sp = none ∧ pop16 s = .raised (s.raise (.busFault s.sp .read))) ∨
    (∃ lo, s.readByte s.sp = some lo ∧ s.readByte (s.sp + 1) = none ∧
      pop16 s = .raised ((s.setSp (s.sp + 1)).raise (.busFault (s.sp + 1) .read))) := by
  rcases memRead_cases s.sp s with ⟨lo, hlo, hn⟩ | ⟨hlo, hn⟩
  · rcases memRead_cases (s.sp + 1) (s.setSp (s.sp + 1)) with ⟨hi, hhi, hn'⟩ | ⟨hhi, hn'⟩
    · exact .inl ⟨lo, hi, hlo, hhi, by simp only [pop16, hn, State.setSp_sp, hn', Res.andThen, State.setSp_setSp]⟩
    · exact .inr (.inr ⟨lo, hlo, hhi, by simp only [pop16, hn, State.setSp_sp, hn', Res.andThen]⟩)
  · exact .inr (.inl ⟨hlo, by simp [pop16, hn, Res.andThen]⟩)

/-- A push onto two bytes of RAM: what it leaves at each address and that it touches nothing but SP and RAM. -/
theorem push16_inRam (w : Word) (s : State) (h1 : inRam (s.sp - 1) = true) (h2 : inRam (s.sp - 2) = true) :
    ∃ t, push16 w s = .ok () t ∧ t.sp = s.sp - 2 ∧
      (∀ a, t.readByte a = if a = s.sp - 2 then some (loByte w) else
        if a = s.sp - 1 then some (hiByte w) else s.readByte a) ∧
      { t with sp := s.sp, ram := s.ram } = s := by
  have h12 : s.sp - 1 - 1 = s.sp - 2 := by bv_omega
  rw [← h12] at h2 ⊢
  rcases push16_cases w s with ⟨-, -, he⟩ | ⟨h, he⟩ | ⟨-, h, he⟩
  · let u : State := { s with sp := s.sp - 1 - 1, ram := s.ram.set (s.sp - 1).toNat (hiByte w) }
    have hu : ∀ a, u.readByte a = if a = s.sp - 1 then some (hiByte w) else s.readByte a :=
      fun a => readByte_store s (hiByte w) a h1
    refine ⟨_, he, rfl, fun a => ?_, rfl⟩
    rw [← hu]
    exact readByte_store u (loByte w) a h2
  · rw [h1] at h; cases h
  · rw [h2] at h; cases h

/-- A pop of two readable bytes. -/
theorem pop16_readable {lo hi : Byte} (h1 : s.readByte s.sp = some lo) (h2 : s.readByte (s.sp + 1) = some hi) :
    pop16 s = .ok (joinBytes hi lo) (s.setSp (s.sp + 2)) := by
  have h12 : s.sp + 1 + 1 = s.sp + 2 := by bv_omega
  rcases pop16_cases s with ⟨lo', hi', h, h', he⟩ | ⟨h, -⟩ | ⟨-, -, h, -⟩
  · rw [h1] at h; cases h
    rw [h2] at h'; cases h'
    rw [he, h12]
  · rw [h1] at h; cases h
  · rw [h2] at h; cases h

end Sys2Proof.Machine
end

