-- ==== Sys2Proof/Laws/Decode.lean ====
section
/-! SUPPORT. What the decoder does with each shape of input, and what holds of every row of a table. -/

namespace Sys2Proof

theorem decode_nil : decode [] = .error .truncated := rfl

theorem decode_primary {op : Byte} (h : op ≠ Config.prefixEd) (bs : List Byte) :
    decode (op :: bs) = decodeEntry .primary op (primaryTable op) bs := by
  simp [decode, h]

theorem decode_prefix_nil : decode [Config.prefixEd] = .error .truncated := rfl

theorem decode_extended (op : Byte) (bs : List Byte) :
    decode (Config.prefixEd :: op :: bs) = decodeEntry .extended op (extendedTable op) bs := rfl

/-- The decoder's cases on its first bytes. -/
theorem decode_cases (bytes : List Byte) :
    bytes = [] ∨ bytes = [Config.prefixEd] ∨
    (∃ op bs, bytes = Config.prefixEd :: op :: bs ∧ decode bytes = decodeEntry .extended op (extendedTable op) bs) ∨
    (∃ op bs, op ≠ Config.prefixEd ∧ bytes = op :: bs ∧
      decode bytes = decodeEntry .primary op (primaryTable op) bs) := by
  match bytes with
  | [] => exact .inl rfl
  | op :: bs =>
    by_cases h : op = Config.prefixEd
    · subst h
      match bs with
      | [] => exact .inr (.inl rfl)
      | op2 :: bs => exact .inr (.inr (.inl ⟨op2, bs, rfl, rfl⟩))
    · exact .inr (.inr (.inr ⟨op, bs, h, rfl, decode_primary h bs⟩))

/-- Only an absent entry is rejected as absent. -/
theorem decodeEntry_absent_iff (t t' : Table) (op op' : Byte) (e : Option Entry) (bs : List Byte) :
    decodeEntry t op e bs = .error (.absent t' op') ↔ e = none ∧ t = t' ∧ op = op' := by
  match e with
  | none => simp [decodeEntry]
  | some (.plain _) => simp [decodeEntry]
  | some (.imm8 _) => cases bs <;> simp [decodeEntry]
  | some (.imm16 _) =>
    match bs with
    | [] => simp [decodeEntry]
    | [_] => simp [decodeEntry]
    | _ :: _ :: _ => simp [decodeEntry]

/-- What holds of every row holds of the row that is found. -/
theorem lookupRow_of_forall (P : Byte × Entry → Prop) (rows : List (Byte × Entry)) (op : Byte) (e : Entry)
    (h : ∀ row ∈ rows, P row) (he : lookupRow rows op = some e) : P (op, e) := by
  induction rows with
  | nil => cases he
  | cons row rows ih =>
    obtain ⟨b, e'⟩ := row
    unfold lookupRow at he
    split at he
    · next hb =>
      subst hb
      cases he
      exact h _ (List.mem_cons_self ..)
    · exact ih (fun row hr => h row (List.mem_cons_of_mem _ hr)) he

end Sys2Proof
end

