-- ==== Sys2Proof/Laws/Exec.lean ====
section
/-! SUPPORT. Every instruction is one of the shared operations applied to operands: a claim about all
instructions is a claim about these few operations. -/

namespace Sys2Proof.Machine

/-- The shared operations, as an instruction applies them. -/
inductive Action where
  | load8 (dst : Dst8) (src : Src8)
  | load16 (dst : Reg16) (src : Src16)
  | push (p : Reg16)
  | pop (p : Reg16)
  | ldi
  | ldir
  | logic8 (op : LogicOp) (src : Src8)
  | compare8 (src : Src8)
  | add16 (src : Reg16)
  | inc16 (p : Reg16)
  | dec16 (p : Reg16)
  | jump (cc : Cond) (m : Addr)
  | jr (cc : Cond) (e : Byte)
  | call (cc : Cond) (m : Addr)
  | ret
  | di
  | im (m : IntMode)
  | out (pm : Port) (src : Src8)

def Action.run (x : Action) (s : State) : Res Unit :=
  match x with
  | .load8 dst src => Machine.load8 dst src s
  | .load16 dst src => Machine.load16 dst src s
  | .push p => pushPair p s
  | .pop p => popPair p s
  | .ldi => ldiBody s
  | .ldir => ldirStep s
  | .logic8 op src => Machine.logic8 op src s
  | .compare8 src => Machine.compare8 src s
  | .add16 src => Machine.add16 .hl src s
  | .inc16 p => Machine.inc16 p s
  | .dec16 p => Machine.dec16 p s
  | .jump cc m => Machine.jump cc m s
  | .jr cc e => jumpRelative cc e s
  | .call cc m => callTo cc m s
  | .ret => returnFrom s
  | .di => disableInterrupts s
  | .im m => setIntMode m s
  | .out pm src => Machine.out pm src s

/-- The operation an instruction applies. -/
def action : Instr → Action
  | .ldBcNn nn => .load16 .bc (.imm nn)
  | .ldAtBcA => .load8 (.mem (.ind .bc)) (.reg .a)
  | .incBc => .inc16 .bc
  | .ldBN n => .load8 (.reg .b) (.imm n)
  | .addHlBc => .add16 .bc
  | .ldAAtBc => .load8 (.reg .a) (.mem (.ind .bc))
  | .decBc => .dec16 .bc
  | .ldCN n => .load8 (.reg .c) (.imm n)
  | .ldDeNn nn => .load16 .de (.imm nn)
  | .ldAtDeA => .load8 (.mem (.ind .de)) (.reg .a)
  | .incDe => .inc16 .de
  | .ldDN n => .load8 (.reg .d) (.imm n)
  | .jrE e => .jr .always e
  | .addHlDe => .add16 .de
  | .ldAAtDe => .load8 (.reg .a) (.mem (.ind .de))
  | .decDe => .dec16 .de
  | .ldEN n => .load8 (.reg .e) (.imm n)
  | .jrNzE e => .jr .nz e
  | .ldHlNn nn => .load16 .hl (.imm nn)
  | .incHl => .inc16 .hl
  | .ldHN n => .load8 (.reg .h) (.imm n)
  | .jrZE e => .jr .z e
  | .addHlHl => .add16 .hl
  | .decHl => .dec16 .hl
  | .ldLN n => .load8 (.reg .l) (.imm n)
  | .jrNcE e => .jr .nc e
  | .ldSpNn nn => .load16 .sp (.imm nn)
  | .ldAtNnA nn => .load8 (.mem (.direct nn)) (.reg .a)
  | .incSp => .inc16 .sp
  | .ldAtHlN n => .load8 (.mem (.ind .hl)) (.imm n)
  | .jrCE e => .jr .c e
  | .addHlSp => .add16 .sp
  | .ldAAtNn nn => .load8 (.reg .a) (.mem (.direct nn))
  | .decSp => .dec16 .sp
  | .ldAN n => .load8 (.reg .a) (.imm n)
  | .ldBB => .load8 (.reg .b) (.reg .b)
  | .ldBC => .load8 (.reg .b) (.reg .c)
  | .ldBD => .load8 (.reg .b) (.reg .d)
  | .ldBE => .load8 (.reg .b) (.reg .e)
  | .ldBH => .load8 (.reg .b) (.reg .h)
  | .ldBL => .load8 (.reg .b) (.reg .l)
  | .ldBAtHl => .load8 (.reg .b) (.mem (.ind .hl))
  | .ldBA => .load8 (.reg .b) (.reg .a)
  | .ldCB => .load8 (.reg .c) (.reg .b)
  | .ldCC => .load8 (.reg .c) (.reg .c)
  | .ldCD => .load8 (.reg .c) (.reg .d)
  | .ldCE => .load8 (.reg .c) (.reg .e)
  | .ldCH => .load8 (.reg .c) (.reg .h)
  | .ldCL => .load8 (.reg .c) (.reg .l)
  | .ldCAtHl => .load8 (.reg .c) (.mem (.ind .hl))
  | .ldCA => .load8 (.reg .c) (.reg .a)
  | .ldDB => .load8 (.reg .d) (.reg .b)
  | .ldDC => .load8 (.reg .d) (.reg .c)
  | .ldDD => .load8 (.reg .d) (.reg .d)
  | .ldDE => .load8 (.reg .d) (.reg .e)
  | .ldDH => .load8 (.reg .d) (.reg .h)
  | .ldDL => .load8 (.reg .d) (.reg .l)
  | .ldDAtHl => .load8 (.reg .d) (.mem (.ind .hl))
  | .ldDA => .load8 (.reg .d) (.reg .a)
  | .ldEB => .load8 (.reg .e) (.reg .b)
  | .ldEC => .load8 (.reg .e) (.reg .c)
  | .ldED => .load8 (.reg .e) (.reg .d)
  | .ldEE => .load8 (.reg .e) (.reg .e)
  | .ldEH => .load8 (.reg .e) (.reg .h)
  | .ldEL => .load8 (.reg .e) (.reg .l)
  | .ldEAtHl => .load8 (.reg .e) (.mem (.ind .hl))
  | .ldEA => .load8 (.reg .e) (.reg .a)
  | .ldHB => .load8 (.reg .h) (.reg .b)
  | .ldHC => .load8 (.reg .h) (.reg .c)
  | .ldHD => .load8 (.reg .h) (.reg .d)
  | .ldHE => .load8 (.reg .h) (.reg .e)
  | .ldHH => .load8 (.reg .h) (.reg .h)
  | .ldHL => .load8 (.reg .h) (.reg .l)
  | .ldHAtHl => .load8 (.reg .h) (.mem (.ind .hl))
  | .ldHA => .load8 (.reg .h) (.reg .a)
  | .ldLB => .load8 (.reg .l) (.reg .b)
  | .ldLC => .load8 (.reg .l) (.reg .c)
  | .ldLD => .load8 (.reg .l) (.reg .d)
  | .ldLE => .load8 (.reg .l) (.reg .e)
  | .ldLH => .load8 (.reg .l) (.reg .h)
  | .ldLL => .load8 (.reg .l) (.reg .l)
  | .ldLAtHl => .load8 (.reg .l) (.mem (.ind .hl))
  | .ldLA => .load8 (.reg .l) (.reg .a)
  | .ldAtHlB => .load8 (.mem (.ind .hl)) (.reg .b)
  | .ldAtHlC => .load8 (.mem (.ind .hl)) (.reg .c)
  | .ldAtHlD => .load8 (.mem (.ind .hl)) (.reg .d)
  | .ldAtHlE => .load8 (.mem (.ind .hl)) (.reg .e)
  | .ldAtHlH => .load8 (.mem (.ind .hl)) (.reg .h)
  | .ldAtHlL => .load8 (.mem (.ind .hl)) (.reg .l)
  | .ldAtHlA => .load8 (.mem (.ind .hl)) (.reg .a)
  | .ldAB => .load8 (.reg .a) (.reg .b)
  | .ldAC => .load8 (.reg .a) (.reg .c)
  | .ldAD => .load8 (.reg .a) (.reg .d)
  | .ldAE => .load8 (.reg .a) (.reg .e)
  | .ldAH => .load8 (.reg .a) (.reg .h)
  | .ldAL => .load8 (.reg .a) (.reg .l)
  | .ldAAtHl => .load8 (.reg .a) (.mem (.ind .hl))
  | .ldAA => .load8 (.reg .a) (.reg .a)
  | .xorB => .logic8 .xor (.reg .b)
  | .xorC => .logic8 .xor (.reg .c)
  | .xorD => .logic8 .xor (.reg .d)
  | .xorE => .logic8 .xor (.reg .e)
  | .xorH => .logic8 .xor (.reg .h)
  | .xorL => .logic8 .xor (.reg .l)
  | .xorAtHl => .logic8 .xor (.mem (.ind .hl))
  | .xorA => .logic8 .xor (.reg .a)
  | .orB => .logic8 .or (.reg .b)
  | .orC => .logic8 .or (.reg .c)
  | .orD => .logic8 .or (.reg .d)
  | .orE => .logic8 .or (.reg .e)
  | .orH => .logic8 .or (.reg .h)
  | .orL => .logic8 .or (.reg .l)
  | .orAtHl => .logic8 .or (.mem (.ind .hl))
  | .orA => .logic8 .or (.reg .a)
  | .cpB => .compare8 (.reg .b)
  | .cpC => .compare8 (.reg .c)
  | .cpD => .compare8 (.reg .d)
  | .cpE => .compare8 (.reg .e)
  | .cpH => .compare8 (.reg .h)
  | .cpL => .compare8 (.reg .l)
  | .cpAtHl => .compare8 (.mem (.ind .hl))
  | .cpA => .compare8 (.reg .a)
  | .popBc => .pop .bc
  | .jpNzNn nn => .jump .nz (.direct nn)
  | .jpNn nn => .jump .always (.direct nn)
  | .callNzNn nn => .call .nz (.direct nn)
  | .pushBc => .push .bc
  | .ret => .ret
  | .jpZNn nn => .jump .z (.direct nn)
  | .callZNn nn => .call .z (.direct nn)
  | .callNn nn => .call .always (.direct nn)
  | .popDe => .pop .de
  | .jpNcNn nn => .jump .nc (.direct nn)
  | .outAtNA n => .out (.imm n) (.reg .a)
  | .callNcNn nn => .call .nc (.direct nn)
  | .pushDe => .push .de
  | .jpCNn nn => .jump .c (.direct nn)
  | .callCNn nn => .call .c (.direct nn)
  | .popHl => .pop .hl
  | .jpPoNn nn => .jump .po (.direct nn)
  | .callPoNn nn => .call .po (.direct nn)
  | .pushHl => .push .hl
  | .jpAtHl => .jump .always (.ind .hl)
  | .jpPeNn nn => .jump .pe (.direct nn)
  | .callPeNn nn => .call .pe (.direct nn)
  | .xorN n => .logic8 .xor (.imm n)
  | .popAf => .pop .af
  | .jpPNn nn => .jump .p (.direct nn)
  | .di => .di
  | .callPNn nn => .call .p (.direct nn)
  | .pushAf => .push .af
  | .orN n => .logic8 .or (.imm n)
  | .ldSpHl => .load16 .sp (.pair .hl)
  | .jpMNn nn => .jump .m (.direct nn)
  | .callMNn nn => .call .m (.direct nn)
  | .cpN n => .compare8 (.imm n)
  | .outAtCB => .out .indC (.reg .b)
  | .im0 => .im .im0
  | .outAtCC => .out .indC (.reg .c)
  | .outAtCD => .out .indC (.reg .d)
  | .im1 => .im .im1
  | .outAtCE => .out .indC (.reg .e)
  | .im2 => .im .im2
  | .outAtCH => .out .indC (.reg .h)
  | .outAtCL => .out .indC (.reg .l)
  | .outAtCA => .out .indC (.reg .a)
  | .ldi => .ldi
  | .ldir => .ldir

theorem exec_eq_action (i : Instr) (s : State) : exec i s = ((action i).run s).outcome := by
  cases i <;> rfl

/-- Every instruction answers a next state: none faults or is refused. -/
theorem exec_eq_next (i : Instr) (s : State) : exec i s = .next ((action i).run s).state :=
  exec_eq_action i s

/-! ## What an operation is made of -/

/-- The operations that move SP through the stack helpers. -/
def Action.stack : Action → Bool
  | .push _ | .pop _ | .call _ _ | .ret => true
  | _ => false

/-- The pairs an operation writes. -/
def Action.pairs : Action → List Reg16
  | .load16 dst _ => [dst]
  | .pop p => [p]
  | .ldi | .ldir => [.de, .hl, .bc]
  | .add16 _ => [.hl]
  | .inc16 p => [p]
  | .dec16 p => [p]
  | _ => []

/-- The operations that may store to memory. -/
def Action.stores : Action → Bool
  | .load8 (.mem _) _ | .push _ | .call _ _ | .ldi | .ldir => true
  | _ => false

/-- A relation between the state before and the state after that holds across every elementary update that
the operation is made of. -/
structure Preserved (R : State → State → Prop) (x : Action) : Prop where
  refl : ∀ s, R s s
  trans : ∀ s t u, R s t → R t u → R s u
  setPc : ∀ s v, R s (State.setPc s v)
  raise : ∀ s k, R s (State.raise s k)
  setSp : x.stack = true → ∀ s v, R s (State.setSp s v)
  setReg8 : ∀ r src, x = .load8 (.reg r) src → ∀ s v, R s (State.setReg8 s r v)
  pairWrite : ∀ p ∈ x.pairs, ∀ s v, R s (State.pairWrite s p v)
  logic : ∀ op src, x = .logic8 op src → ∀ s v, R s (setLogic op v s)
  compare : ∀ src, x = .compare8 src → ∀ s v, R s (setCompare v false s)
  sum : ∀ src, x = .add16 src → ∀ (s : State) a b, R s { s with f := add16Flags a b s.f }
  store : x.stores = true → ∀ (s : State) (a : Word) v, inRam a = true →
    R s { s with ram := s.ram.set a.toNat v }
  port : ∀ pm src, x = .out pm src → ∀ s w, R s { s with ports := s.ports ++ [w] }
  disable : x = .di → ∀ s, R s { s with iff1 := false, iff2 := false }
  mode : ∀ m, x = .im m → ∀ s, R s { s with im := m }

/-- What the elementary updates of an operation preserve, the operation preserves, whether or not it raises. -/
theorem Action.run_preserved {R : State → State → Prop} {x : Action} (h : Preserved R x) (s : State) :
    R s (x.run s).state := by
  have hread : ∀ a s, R s (memRead a s).state := by
    intro a s
    rcases memRead_cases a s with ⟨v, -, he⟩ | ⟨-, he⟩ <;> rw [he]
    · exact h.refl s
    · exact h.raise _ _
  have hwrite : x.stores = true → ∀ a v s, R s (memWrite a v s).state := by
    intro hx a v s
    rcases memWrite_cases a v s with ⟨hr, he⟩ | ⟨-, he⟩ <;> rw [he]
    · exact h.store hx _ _ _ hr
    · exact h.raise _ _
  have hthen : ∀ {α β : Type} (y : Res α) (k : α → State → Res β) (s : State), R s y.state →
      (∀ v t, R t (k v t).state) → R s (y.andThen k).state := by
    intro α β y k s h1 h2
    cases y with
    | ok v t => exact h.trans _ _ _ h1 (h2 v t)
    | raised t => exact h1
  have hread8 : ∀ src s, R s (read8 src s).state := by
    intro src s; cases src <;> first | exact h.refl s | exact hread _ _
  have hpush : x.stack = true → x.stores = true → ∀ v s, R s (push16 v s).state := by
    intro h1 h2 v s
    exact h.trans _ _ _ (h.setSp h1 s _)
      (hthen _ _ _ (hwrite h2 _ _ _) fun _ t => h.trans _ _ _ (h.setSp h1 t _) (hwrite h2 _ _ _))
  have hpop : x.stack = true → ∀ s, R s (pop16 s).state := by
    intro h1 s
    exact hthen _ _ _ (hread _ _) fun _ t =>
      h.trans _ _ _ (h.setSp h1 t _) (hthen _ _ _ (hread _ _) fun _ u => h.setSp h1 u _)
  have hldi : x.stores = true → x.pairs = [.de, .hl, .bc] → ∀ s, R s (ldiBody s).state := by
    intro h1 h2 s
    have hp : ∀ p ∈ [Reg16.de, .hl, .bc], ∀ s v, R s (State.pairWrite s p v) := h2 ▸ h.pairWrite
    refine hthen _ _ _ (hread _ _) fun _ t => hthen _ _ _ (hwrite h1 _ _ _) fun _ u => ?_
    show R u (((u.pairWrite .de _).pairWrite .hl _).pairWrite .bc _)
    exact h.trans _ _ _ (hp _ (by decide) _ _) (h.trans _ _ _ (hp _ (by decide) _ _) (hp _ (by decide) _ _))
  have hif : ∀ (b : Bool) (s : State) v, R s (if b then s.setPc v else s) := by
    intro b s v; cases b
    · exact h.refl s
    · exact h.setPc s v
  cases x with
  | load8 dst src =>
    refine hthen _ _ _ (hread8 _ _) fun v t => ?_
    cases dst with
    | reg r => exact h.setReg8 r src rfl _ _
    | mem m => exact hwrite rfl _ _ _
  | load16 dst src => exact h.pairWrite _ (.head _) _ _
  | push p => exact hpush rfl rfl _ _
  | pop p => exact hthen _ _ _ (hpop rfl _) fun v t => h.pairWrite _ (.head _) _ _
  | ldi => exact hldi rfl rfl _
  | ldir =>
    refine hthen _ _ _ (hldi rfl rfl _) fun v t => ?_
    dsimp only [Res.state]
    split
    · exact h.refl _
    · exact h.setPc _ _
  | logic8 op src => exact hthen _ _ _ (hread8 _ _) fun v t => h.logic _ _ rfl _ _
  | compare8 src => exact hthen _ _ _ (hread8 _ _) fun v t => h.compare _ rfl _ _
  | add16 src =>
    show R s (State.pairWrite { s with f := _ } .hl _)
    exact h.trans _ _ _ (h.sum _ rfl _ _ _) (h.pairWrite _ (.head _) _ _)
  | inc16 p => exact h.pairWrite _ (.head _) _ _
  | dec16 p => exact h.pairWrite _ (.head _) _ _
  | jump cc m => exact hif _ _ _
  | jr cc e => exact hif _ _ _
  | call cc m =>
    show R s (callTo cc m s).state
    unfold callTo
    dsimp only
    split
    · exact hthen _ _ _ (hpush rfl rfl _ _) fun _ t => h.setPc _ _
    · exact h.refl _
  | ret => exact hthen _ _ _ (hpop rfl _) fun v t => h.setPc _ _
  | di => exact h.disable rfl _
  | im m => exact h.mode _ rfl _
  | out pm src => exact hthen _ _ _ (hread8 _ _) fun v t => h.port _ _ rfl _ _

end Sys2Proof.Machine
end

