-- ==== Sys2Proof/Laws/Families.lean ====
section
/-! SUPPORT. The meaning of each family of instructions as one operation over its operands, so that a claim
about a family needs no case split over its members. -/

namespace Sys2Proof.Machine

/-- The operand of XOR, OR or CP as the resolver takes it. -/
def aluSrc8 : AluSrc → Src8
  | .reg r => .reg r
  | .atHl => .mem (.ind .hl)
  | .imm n => .imm n

variable (s : State)

theorem exec_ldReg (dst r : Reg8) : exec (.ldReg dst r) s = .next (s.setReg8 dst (s.reg8 r)) := by
  cases dst <;> cases r <;> rfl

theorem exec_ldImm (dst : Reg8) (n : Byte) : exec (.ldImm dst n) s = .next (s.setReg8 dst n) := by
  cases dst <;> rfl

theorem exec_ldFromHl (dst : Reg8) : exec (.ldFromHl dst) s =
    .next ((memRead (s.pairRead .hl) s).andThen fun v s => .ok () (s.setReg8 dst v)).state := by
  cases dst <;> rfl

theorem exec_ldToHl (r : Reg8) : exec (.ldToHl r) s = .next (memWrite (s.pairRead .hl) (s.reg8 r) s).state := by
  cases r <;> rfl

theorem exec_ldPair (p : PairDd) (nn : Word) : exec (.ldPair p nn) s = .next (s.pairWrite p.reg16 nn) := by
  cases p <;> rfl

theorem exec_push (q : PairQq) : exec (.push q) s = .next (push16 (s.pairRead q.reg16) s).state := by
  cases q <;> rfl

theorem exec_pop (q : PairQq) : exec (.pop q) s =
    .next ((pop16 s).andThen fun v s => .ok () (s.pairWrite q.reg16 v)).state := by
  cases q <;> rfl

theorem exec_logic (op : LogicOp) (src : AluSrc) : exec (.logic op src) s =
    .next (Action.run (.logic8 op (aluSrc8 src)) s).state := by
  cases op <;> rcases src with r | _ | n <;> first | rfl | (cases r <;> rfl)

theorem exec_cpS (src : AluSrc) : exec (.cpS src) s =
    .next (Action.run (.compare8 (aluSrc8 src)) s).state := by
  rcases src with r | _ | n <;> first | rfl | (cases r <;> rfl)

theorem exec_addHl (p : PairDd) : exec (.addHl p) s = .next (add16 .hl p.reg16 s).state := by
  cases p <;> rfl

theorem exec_incPair (p : PairDd) : exec (.incPair p) s = .next (s.pairWrite p.reg16 (s.pairRead p.reg16 + 1)) := by
  cases p <;> rfl

theorem exec_decPair (p : PairDd) : exec (.decPair p) s = .next (s.pairWrite p.reg16 (s.pairRead p.reg16 - 1)) := by
  cases p <;> rfl

theorem exec_jp (cc : Cond) (nn : Word) : exec (.jp cc nn) s = .next (jump cc (.direct nn) s).state := by
  cases cc <;> rfl

theorem exec_jr (cc : JrCond) (e : Byte) : exec (.jr cc e) s = .next (jumpRelative cc.cond e s).state := by
  cases cc <;> rfl

theorem exec_call (cc : Cond) (nn : Word) : exec (.call cc nn) s = .next (callTo cc (.direct nn) s).state := by
  cases cc <;> rfl

theorem exec_outToC (r : Reg8) : exec (.outToC r) s =
    .next { s with ports := s.ports ++ [⟨s.c, s.reg8 r⟩] } := by
  cases r <;> rfl

end Sys2Proof.Machine
end

