-- ==== Sys2Proof/Laws/Fetch.lean ====
section
/-! SUPPORT. Code in memory, read a byte at a time, and the shape of a step. -/

namespace Sys2Proof.Machine

variable {s : State} {b : Byte} {bytes : List Byte}

theorem past_zero (s : State) : s.past 0 = s := by simp [State.past, State.setPc]

theorem past_succ (s : State) (n : Nat) : s.past (n + 1) = (s.setPc (s.pc + 1)).past n := by
  have h : s.pc + BitVec.ofNat 16 (n + 1) = s.pc + 1 + BitVec.ofNat 16 n := by
    rw [BitVec.add_assoc, BitVec.ofNat_add, BitVec.add_comm (BitVec.ofNat 16 n)]
    rfl
  unfold State.past
  rw [h]
  rfl

theorem codeAt_nil (s : State) : CodeAt s [] := fun k h => absurd h (Nat.not_lt_zero k)

/-- Code at PC is its first byte at PC and the rest at the next address. -/
theorem codeAt_cons : CodeAt s (b :: bytes) ↔ s.readByte s.pc = some b ∧ CodeAt (s.setPc (s.pc + 1)) bytes := by
  have hk (k : Nat) : s.pc + BitVec.ofNat 16 (k + 1) = s.pc + 1 + BitVec.ofNat 16 k :=
    congrArg State.pc (past_succ s k)
  constructor
  · intro h
    refine ⟨by simpa using h 0 (Nat.zero_lt_succ _), fun k hlt => ?_⟩
    have := h (k + 1) (Nat.succ_lt_succ hlt)
    rw [hk] at this
    simpa using this
  · rintro ⟨h0, h⟩ k hlt
    cases k with
    | zero => simpa using h0
    | succ k =>
      rw [hk]
      simpa using h k (Nat.lt_of_succ_lt_succ hlt)

theorem next8_of_codeAt (h : CodeAt s (b :: bytes)) : next8 s = .ok b (s.setPc (s.pc + 1)) :=
  next8_some (codeAt_cons.mp h).1

/-! ## The shape of a step -/

theorem step_of_faulted (r : Fault) (h : s.fault = some r) : step s = .fault r := by
  simp [step, fetchAndRun, h]

theorem step_of_fetch_ok {t : State} {i : Instr} (h : s.fault = none) (hf : fetch s = .ok i t) :
    step s = exec i t := by
  simp [step, fetchAndRun, h, hf]

theorem step_of_fetch_raised {t : State} (h : s.fault = none) (hf : fetch s = .raised t) : step s = .next t := by
  simp [step, fetchAndRun, h, hf]

/-- A step that answers a next state has fetched an instruction and run it, or has raised in the fetch. -/
theorem step_next_cases {t : State} (h : step s = .next t) :
    s.fault = none ∧ ((∃ i u, fetch s = .ok i u ∧ exec i u = .next t) ∨ fetch s = .raised t) := by
  cases hf : s.fault with
  | some r => rw [step_of_faulted r hf] at h; cases h
  | none =>
    refine ⟨rfl, ?_⟩
    cases hr : fetch s with
    | ok i u => exact .inl ⟨i, u, rfl, by rw [step_of_fetch_ok hf hr] at h; exact h⟩
    | raised u => rw [step_of_fetch_raised hf hr] at h; cases h; exact .inr rfl

/-- Everything the fetch of an entry's immediates can end in: PC moved on over the bytes that were read, and
at most one record latched. -/
theorem fetchEntry_cases (t : Table) (op : Byte) (e : Option Entry) (s : State) :
    (∃ i n, fetchEntry t op e s = .ok i (s.past n)) ∨
    (e = none ∧ fetchEntry t op e s = .raised (s.raise (.decodeFault t op))) ∨
    (∃ n, s.readByte (s.past n).pc = none ∧
      fetchEntry t op e s = .raised ((s.past n).raise (.busFault (s.past n).pc .read))) := by
  have h0 := past_zero s
  have h1 : s.setPc (s.pc + 1) = s.past 1 := by rw [past_succ, past_zero]
  have h2 : s.setPc (s.pc + 1 + 1) = s.past 2 := by rw [past_succ, past_succ, past_zero]; rfl
  match e with
  | none => exact .inr (.inl ⟨rfl, rfl⟩)
  | some (.plain i) => exact .inl ⟨i, 0, by rw [h0]; rfl⟩
  | some (.imm8 k) =>
    rcases next8_cases s with ⟨v, -, hn⟩ | ⟨hv, hn⟩
    · exact .inl ⟨k v, 1, by rw [← h1]; simp only [fetchEntry, hn, Res.andThen]⟩
    · exact .inr (.inr ⟨0, by rw [h0]; exact hv, by rw [h0]; simp only [fetchEntry, hn, Res.andThen]⟩)
  | some (.imm16 k) =>
    rcases next16_cases s with ⟨lo, hi, -, -, hn⟩ | ⟨hv, hn⟩ | ⟨lo, -, hv, hn⟩
    · exact .inl ⟨k (joinBytes hi lo), 2, by rw [← h2]; simp only [fetchEntry, hn, Res.andThen]⟩
    · exact .inr (.inr ⟨0, by rw [h0]; exact hv, by rw [h0]; simp only [fetchEntry, hn, Res.andThen]⟩)
    · exact .inr (.inr ⟨1, by rw [← h1]; exact hv, by rw [← h1]; simp only [fetchEntry, hn, Res.andThen]; rfl⟩)

/-- Everything the fetch of an instruction can end in. -/
theorem fetch_cases (s : State) :
    (∃ i n, fetch s = .ok i (s.past n)) ∨
    (∃ op, op ≠ Config.prefixEd ∧ primaryTable op = none ∧
      fetch s = .raised ((s.past 1).raise (.decodeFault .primary op))) ∨
    (∃ op, extendedTable op = none ∧ fetch s = .raised ((s.past 2).raise (.decodeFault .extended op))) ∨
    (∃ n, s.readByte (s.past n).pc = none ∧
      fetch s = .raised ((s.past n).raise (.busFault (s.past n).pc .read))) := by
  have h0 := past_zero s
  have h1 : s.setPc (s.pc + 1) = s.past 1 := by rw [past_succ, past_zero]
  have hp (m n : Nat) : (s.past m).past n = s.past (m + n) := by
    simp only [State.past, State.setPc_pc, State.setPc_setPc, BitVec.ofNat_add, BitVec.add_assoc]
  rcases next8_cases s with ⟨op, -, hn⟩ | ⟨hv, hn⟩
  · rw [h1] at hn
    by_cases hop : op = Config.prefixEd
    · rcases next8_cases (s.past 1) with ⟨op2, -, hn2⟩ | ⟨hv2, hn2⟩
      · have h2 : (s.past 1).setPc ((s.past 1).pc + 1) = s.past 2 := by
          rw [← hp 1 1, past_succ (s.past 1), past_zero]
        rw [h2] at hn2
        have hf : fetch s = fetchEntry .extended op2 (extendedTable op2) (s.past 2) := by
          simp only [fetch, hn, Res.andThen, hop, if_true, hn2]
        rw [hf]
        rcases fetchEntry_cases .extended op2 (extendedTable op2) (s.past 2) with
          ⟨i, n, h⟩ | ⟨he, h⟩ | ⟨n, hv, h⟩
        · exact .inl ⟨i, 2 + n, by rw [h, hp]⟩
        · exact .inr (.inr (.inl ⟨op2, he, h⟩))
        · rw [hp] at hv h
          exact .inr (.inr (.inr ⟨2 + n, hv, h⟩))
      · exact .inr (.inr (.inr ⟨1, hv2, by simp only [fetch, hn, Res.andThen, hop, if_true, hn2]⟩))
    · have hf : fetch s = fetchEntry .primary op (primaryTable op) (s.past 1) := by
        simp only [fetch, hn, Res.andThen, hop, if_false]
      rw [hf]
      rcases fetchEntry_cases .primary op (primaryTable op) (s.past 1) with ⟨i, n, h⟩ | ⟨he, h⟩ | ⟨n, hv, h⟩
      · exact .inl ⟨i, 1 + n, by rw [h, hp]⟩
      · exact .inr (.inl ⟨op, hop, he, h⟩)
      · rw [hp] at hv h
        exact .inr (.inr (.inr ⟨1 + n, hv, h⟩))
  · exact .inr (.inr (.inr ⟨0, by rw [h0]; exact hv, by rw [h0]; simp only [fetch, hn, Res.andThen]⟩))

end Sys2Proof.Machine
end

