-- ==== Sys2Proof/Laws/Flags.lean ====
section
/-! SUPPORT. Every bit of F after each of the three flag computations. -/

namespace Sys2Proof.Machine

/-- The two bits of F that no flag has are kept by every flag computation (10_state.md R19). -/
theorem logicFlags_unnamed (res f : Byte) :
    (logicFlags res f).getLsbD 5 = f.getLsbD 5 ∧ (logicFlags res f).getLsbD 3 = f.getLsbD 3 := by
  simp only [logicFlags, flagSet_unnamed, and_self]

theorem subcFlags_unnamed (a b : Byte) (cin : Bool) (f : Byte) :
    (subcFlags a b cin f).getLsbD 5 = f.getLsbD 5 ∧ (subcFlags a b cin f).getLsbD 3 = f.getLsbD 3 := by
  simp only [subcFlags, flagSet_unnamed, and_self]

theorem add16Flags_unnamed (a b : Word) (f : Byte) :
    (add16Flags a b f).getLsbD 5 = f.getLsbD 5 ∧ (add16Flags a b f).getLsbD 3 = f.getLsbD 3 := by
  simp only [add16Flags, flagSet_unnamed, and_self]

/-- The flags of XOR and OR (43_alu8.md R121). -/
theorem flagTest_logicFlags (x : Flag) (res f : Byte) :
    flagTest x (logicFlags res f) =
      match x with
      | .s => res.getLsbD 7
      | .z => res == 0
      | .pv => parityEven res
      | .h | .n | .c => false := by
  cases x <;> simp [logicFlags, flagTest_flagSet]

/-- The flags of a subtraction (43_alu8.md R122). -/
theorem flagTest_subcFlags (x : Flag) (a b : Byte) (cin : Bool) (f : Byte) :
    flagTest x (subcFlags a b cin f) =
      match x with
      | .s => (subResult a b cin).getLsbD 7
      | .z => subResult a b cin == 0
      | .h => decide ((a.toNat : Int) % 16 - (b.toNat : Int) % 16 < cin.toNat)
      | .pv => overflowSub a b (subResult a b cin)
      | .n => true
      | .c => decide (subDiff a b cin < 0) := by
  cases x <;> simp [subcFlags, flagTest_flagSet]

/-- The flags of ADD HL,ss (44_alu16.md R140). -/
theorem flagTest_add16Flags (x : Flag) (a b : Word) (f : Byte) :
    flagTest x (add16Flags a b f) =
      match x with
      | .h => decide (a.toNat % 4096 + b.toNat % 4096 > 0x0FFF)
      | .c => decide (a.toNat + b.toNat > 0xFFFF)
      | .n => false
      | .s | .z | .pv => flagTest x f := by
  cases x <;> simp [add16Flags, flagTest_flagSet]

end Sys2Proof.Machine
end

