-- ==== Sys2Proof/Laws/PerInstr.lean ====
section
/-! SUPPORT. The family EntryAllowed: the table entry of each instruction uses its descriptors as the spec
allows (30_encoding.md R68, R71), one lemma per constructor. -/

namespace Sys2Proof.Laws.EntryAllowed

def Statement (i : Instr) : Prop := i.WellFormed = true

theorem ldBcNn (nn : Word) : Statement (.ldBcNn nn) := rfl
theorem ldAtBcA : Statement (.ldAtBcA) := rfl
theorem incBc : Statement (.incBc) := rfl
theorem ldBN (n : Byte) : Statement (.ldBN n) := rfl
theorem addHlBc : Statement (.addHlBc) := rfl
theorem ldAAtBc : Statement (.ldAAtBc) := rfl
theorem decBc : Statement (.decBc) := rfl
theorem ldCN (n : Byte) : Statement (.ldCN n) := rfl
theorem ldDeNn (nn : Word) : Statement (.ldDeNn nn) := rfl
theorem ldAtDeA : Statement (.ldAtDeA) := rfl
theorem incDe : Statement (.incDe) := rfl
theorem ldDN (n : Byte) : Statement (.ldDN n) := rfl
theorem jrE (e : Byte) : Statement (.jrE e) := rfl
theorem addHlDe : Statement (.addHlDe) := rfl
theorem ldAAtDe : Statement (.ldAAtDe) := rfl
theorem decDe : Statement (.decDe) := rfl
theorem ldEN (n : Byte) : Statement (.ldEN n) := rfl
theorem jrNzE (e : Byte) : Statement (.jrNzE e) := rfl
theorem ldHlNn (nn : Word) : Statement (.ldHlNn nn) := rfl
theorem incHl : Statement (.incHl) := rfl
theorem ldHN (n : Byte) : Statement (.ldHN n) := rfl
theorem jrZE (e : Byte) : Statement (.jrZE e) := rfl
theorem addHlHl : Statement (.addHlHl) := rfl
theorem decHl : Statement (.decHl) := rfl
theorem ldLN (n : Byte) : Statement (.ldLN n) := rfl
theorem jrNcE (e : Byte) : Statement (.jrNcE e) := rfl
theorem ldSpNn (nn : Word) : Statement (.ldSpNn nn) := rfl
theorem ldAtNnA (nn : Word) : Statement (.ldAtNnA nn) := rfl
theorem incSp : Statement (.incSp) := rfl
theorem ldAtHlN (n : Byte) : Statement (.ldAtHlN n) := rfl
theorem jrCE (e : Byte) : Statement (.jrCE e) := rfl
theorem addHlSp : Statement (.addHlSp) := rfl
theorem ldAAtNn (nn : Word) : Statement (.ldAAtNn nn) := rfl
theorem decSp : Statement (.decSp) := rfl
theorem ldAN (n : Byte) : Statement (.ldAN n) := rfl
theorem ldBB : Statement (.ldBB) := rfl
theorem ldBC : Statement (.ldBC) := rfl
theorem ldBD : Statement (.ldBD) := rfl
theorem ldBE : Statement (.ldBE) := rfl
theorem ldBH : Statement (.ldBH) := rfl
theorem ldBL : Statement (.ldBL) := rfl
theorem ldBAtHl : Statement (.ldBAtHl) := rfl
theorem ldBA : Statement (.ldBA) := rfl
theorem ldCB : Statement (.ldCB) := rfl
theorem ldCC : Statement (.ldCC) := rfl
theorem ldCD : Statement (.ldCD) := rfl
theorem ldCE : Statement (.ldCE) := rfl
theorem ldCH : Statement (.ldCH) := rfl
theorem ldCL : Statement (.ldCL) := rfl
theorem ldCAtHl : Statement (.ldCAtHl) := rfl
theorem ldCA : Statement (.ldCA) := rfl
theorem ldDB : Statement (.ldDB) := rfl
theorem ldDC : Statement (.ldDC) := rfl
theorem ldDD : Statement (.ldDD) := rfl
theorem ldDE : Statement (.ldDE) := rfl
theorem ldDH : Statement (.ldDH) := rfl
theorem ldDL : Statement (.ldDL) := rfl
theorem ldDAtHl : Statement (.ldDAtHl) := rfl
theorem ldDA : Statement (.ldDA) := rfl
theorem ldEB : Statement (.ldEB) := rfl
theorem ldEC : Statement (.ldEC) := rfl
theorem ldED : Statement (.ldED) := rfl
theorem ldEE : Statement (.ldEE) := rfl
theorem ldEH : Statement (.ldEH) := rfl
theorem ldEL : Statement (.ldEL) := rfl
theorem ldEAtHl : Statement (.ldEAtHl) := rfl
theorem ldEA : Statement (.ldEA) := rfl
theorem ldHB : Statement (.ldHB) := rfl
theorem ldHC : Statement (.ldHC) := rfl
theorem ldHD : Statement (.ldHD) := rfl
theorem ldHE : Statement (.ldHE) := rfl
theorem ldHH : Statement (.ldHH) := rfl
theorem ldHL : Statement (.ldHL) := rfl
theorem ldHAtHl : Statement (.ldHAtHl) := rfl
theorem ldHA : Statement (.ldHA) := rfl
theorem ldLB : Statement (.ldLB) := rfl
theorem ldLC : Statement (.ldLC) := rfl
theorem ldLD : Statement (.ldLD) := rfl
theorem ldLE : Statement (.ldLE) := rfl
theorem ldLH : Statement (.ldLH) := rfl
theorem ldLL : Statement (.ldLL) := rfl
theorem ldLAtHl : Statement (.ldLAtHl) := rfl
theorem ldLA : Statement (.ldLA) := rfl
theorem ldAtHlB : Statement (.ldAtHlB) := rfl
theorem ldAtHlC : Statement (.ldAtHlC) := rfl
theorem ldAtHlD : Statement (.ldAtHlD) := rfl
theorem ldAtHlE : Statement (.ldAtHlE) := rfl
theorem ldAtHlH : Statement (.ldAtHlH) := rfl
theorem ldAtHlL : Statement (.ldAtHlL) := rfl
theorem ldAtHlA : Statement (.ldAtHlA) := rfl
theorem ldAB : Statement (.ldAB) := rfl
theorem ldAC : Statement (.ldAC) := rfl
theorem ldAD : Statement (.ldAD) := rfl
theorem ldAE : Statement (.ldAE) := rfl
theorem ldAH : Statement (.ldAH) := rfl
theorem ldAL : Statement (.ldAL) := rfl
theorem ldAAtHl : Statement (.ldAAtHl) := rfl
theorem ldAA : Statement (.ldAA) := rfl
theorem xorB : Statement (.xorB) := rfl
theorem xorC : Statement (.xorC) := rfl
theorem xorD : Statement (.xorD) := rfl
theorem xorE : Statement (.xorE) := rfl
theorem xorH : Statement (.xorH) := rfl
theorem xorL : Statement (.xorL) := rfl
theorem xorAtHl : Statement (.xorAtHl) := rfl
theorem xorA : Statement (.xorA) := rfl
theorem orB : Statement (.orB) := rfl
theorem orC : Statement (.orC) := rfl
theorem orD : Statement (.orD) := rfl
theorem orE : Statement (.orE) := rfl
theorem orH : Statement (.orH) := rfl
theorem orL : Statement (.orL) := rfl
theorem orAtHl : Statement (.orAtHl) := rfl
theorem orA : Statement (.orA) := rfl
theorem cpB : Statement (.cpB) := rfl
theorem cpC : Statement (.cpC) := rfl
theorem cpD : Statement (.cpD) := rfl
theorem cpE : Statement (.cpE) := rfl
theorem cpH : Statement (.cpH) := rfl
theorem cpL : Statement (.cpL) := rfl
theorem cpAtHl : Statement (.cpAtHl) := rfl
theorem cpA : Statement (.cpA) := rfl
theorem popBc : Statement (.popBc) := rfl
theorem jpNzNn (nn : Word) : Statement (.jpNzNn nn) := rfl
theorem jpNn (nn : Word) : Statement (.jpNn nn) := rfl
theorem callNzNn (nn : Word) : Statement (.callNzNn nn) := rfl
theorem pushBc : Statement (.pushBc) := rfl
theorem ret : Statement (.ret) := rfl
theorem jpZNn (nn : Word) : Statement (.jpZNn nn) := rfl
theorem callZNn (nn : Word) : Statement (.callZNn nn) := rfl
theorem callNn (nn : Word) : Statement (.callNn nn) := rfl
theorem popDe : Statement (.popDe) := rfl
theorem jpNcNn (nn : Word) : Statement (.jpNcNn nn) := rfl
theorem outAtNA (n : Byte) : Statement (.outAtNA n) := rfl
theorem callNcNn (nn : Word) : Statement (.callNcNn nn) := rfl
theorem pushDe : Statement (.pushDe) := rfl
theorem jpCNn (nn : Word) : Statement (.jpCNn nn) := rfl
theorem callCNn (nn : Word) : Statement (.callCNn nn) := rfl
theorem popHl : Statement (.popHl) := rfl
theorem jpPoNn (nn : Word) : Statement (.jpPoNn nn) := rfl
theorem callPoNn (nn : Word) : Statement (.callPoNn nn) := rfl
theorem pushHl : Statement (.pushHl) := rfl
theorem jpAtHl : Statement (.jpAtHl) := rfl
theorem jpPeNn (nn : Word) : Statement (.jpPeNn nn) := rfl
theorem callPeNn (nn : Word) : Statement (.callPeNn nn) := rfl
theorem xorN (n : Byte) : Statement (.xorN n) := rfl
theorem popAf : Statement (.popAf) := rfl
theorem jpPNn (nn : Word) : Statement (.jpPNn nn) := rfl
theorem di : Statement (.di) := rfl
theorem callPNn (nn : Word) : Statement (.callPNn nn) := rfl
theorem pushAf : Statement (.pushAf) := rfl
theorem orN (n : Byte) : Statement (.orN n) := rfl
theorem ldSpHl : Statement (.ldSpHl) := rfl
theorem jpMNn (nn : Word) : Statement (.jpMNn nn) := rfl
theorem callMNn (nn : Word) : Statement (.callMNn nn) := rfl
theorem cpN (n : Byte) : Statement (.cpN n) := rfl
theorem outAtCB : Statement (.outAtCB) := rfl
theorem im0 : Statement (.im0) := rfl
theorem outAtCC : Statement (.outAtCC) := rfl
theorem outAtCD : Statement (.outAtCD) := rfl
theorem im1 : Statement (.im1) := rfl
theorem outAtCE : Statement (.outAtCE) := rfl
theorem im2 : Statement (.im2) := rfl
theorem outAtCH : Statement (.outAtCH) := rfl
theorem outAtCL : Statement (.outAtCL) := rfl
theorem outAtCA : Statement (.outAtCA) := rfl
theorem ldi : Statement (.ldi) := rfl
theorem ldir : Statement (.ldir) := rfl

end Sys2Proof.Laws.EntryAllowed
end

