-- ==== Sys2Proof/Tests/Slice0.lean ====
section
/-! SUPPORT. The model's own tests. Expected results are those of 95_test_vectors.md (the vector's number stands
beside it) or of the examples in files 40 to 46; encodings are written out from 30_encoding.md R62 and R70. -/

namespace Sys2Proof.Tests

open Sys2Proof Sys2Proof.Machine

/-- The reset state with a cartridge image. -/
def rom (bytes : List Byte) : State := { State.reset with cart := bytes }

/-- The reset state with a cartridge image that holds the bytes at an address, PC there. -/
def romAt (a : Nat) (bytes : List Byte) : State :=
  { rom (List.replicate a 0 ++ bytes) with pc := BitVec.ofNat 16 a }

/-- One step from the state answers it with the change made: every field is compared. -/
def gives (s : State) (change : State → State) : Bool :=
  match step s with
  | .next t => decide (t = change s)
  | .fault _ => false
  | .refused _ => false

/-- The bytes decode to the instruction, all of them used. -/
def reads (bytes : List Byte) (i : Instr) : Bool :=
  match decode bytes with
  | .ok (j, []) => decide (j = i)
  | _ => false

/-! ## WellFormed refuses -/

theorem test_ill_formed_load8_reads_through_af :
    Invocation.wf (.load8 (.reg .a) (.addr (.ind .af))) = false := by decide
theorem test_ill_formed_load8_writes_through_sp :
    Invocation.wf (.load8 (.addr (.ind .sp)) (.reg .a)) = false := by decide
theorem test_ill_formed_load16_into_af : Invocation.wf (.load16 .af .imm) = false := by decide
theorem test_ill_formed_push_sp : Invocation.wf (.push .sp) = false := by decide
theorem test_ill_formed_pop_sp : Invocation.wf (.pop .sp) = false := by decide
theorem test_ill_formed_logic_through_sp : Invocation.wf (.logic8 .xor (.addr (.ind .sp))) = false := by decide
theorem test_ill_formed_compare_through_af : Invocation.wf (.compare8 (.addr (.ind .af))) = false := by decide
theorem test_ill_formed_add16_into_bc : Invocation.wf (.add16 .bc .hl) = false := by decide
theorem test_ill_formed_add16_from_af : Invocation.wf (.add16 .hl .af) = false := by decide
theorem test_ill_formed_inc16_af : Invocation.wf (.inc16 .af) = false := by decide
theorem test_ill_formed_dec16_af : Invocation.wf (.dec16 .af) = false := by decide
theorem test_ill_formed_jump_through_sp : Invocation.wf (.jump .always (.ind .sp)) = false := by decide
theorem test_ill_formed_jr_on_parity : Invocation.wf (.jr .po) = false := by decide
theorem test_ill_formed_call_through_hl : Invocation.wf (.call .always (.ind .hl)) = false := by decide
theorem test_ill_formed_out_through_sp : Invocation.wf (.out .imm (.addr (.ind .sp))) = false := by decide
theorem test_well_formed_samples :
    [Instr.ldAAtHl, .pushAf, .addHlSp, .jpAtHl, .jrCE 1, .outAtCC].all Instr.WellFormed = true := by decide

/-! ## Decoding: the spec's encodings -/
/-- One word of each pattern of R70, bit by bit: opcode, then immediate bytes, low byte first. -/
theorem test_decode_bits :
    [reads [0b01_000_001] (.ldBC),
     reads [0b01_111_110] (.ldAAtHl),
     reads [0b01_110_011] (.ldAtHlE),
     reads [0b00_010_110, 0x3C] (.ldDN 0x3C),
     reads [0b00_10_0001, 0x34, 0x12] (.ldHlNn 0x1234),
     reads [0b11_11_0101] (.pushAf),
     reads [0b11_01_0001] (.popDe),
     reads [0b10_101_111] (.xorA),
     reads [0b10_110_001] (.orC),
     reads [0b10_111_110] (.cpAtHl),
     reads [0b00_11_1001] (.addHlSp),
     reads [0b00_01_0011] (.incDe),
     reads [0b00_00_1011] (.decBc),
     reads [0b11_101_010, 0x34, 0x12] (.jpPeNn 0x1234),
     reads [0b11_011_100, 0x00, 0x02] (.callCNn 0x0200),
     reads [0b00_1_00_000, 0xF7] (.jrNzE 0xF7),
     reads [0xED, 0b01_011_001] (.outAtCE),
     reads [0xED, 0b10110000] (.ldir),
     reads [0xED, 0b01011110] (.im2),
     reads [0b11001001] (.ret),
     reads [0b11110011] (.di),
     reads [0b11010011, 0xFD] (.outAtNA 0xFD),
     reads [0b11111001] (.ldSpHl)].all id = true := by decide

/-- Every opcode byte of R70 decodes to its instruction, and its immediate is read low byte first. -/
theorem test_decode_op_1 :
    [reads [0x02] .ldAtBcA, reads [0x03] .incBc, reads [0x09] .addHlBc,
     reads [0x0A] .ldAAtBc, reads [0x0B] .decBc, reads [0x12] .ldAtDeA,
     reads [0x13] .incDe, reads [0x19] .addHlDe, reads [0x1A] .ldAAtDe,
     reads [0x1B] .decDe, reads [0x23] .incHl, reads [0x29] .addHlHl,
     reads [0x2B] .decHl, reads [0x33] .incSp, reads [0x39] .addHlSp,
     reads [0x3B] .decSp, reads [0x40] .ldBB, reads [0x41] .ldBC,
     reads [0x42] .ldBD, reads [0x43] .ldBE, reads [0x44] .ldBH,
     reads [0x45] .ldBL, reads [0x46] .ldBAtHl, reads [0x47] .ldBA,
     reads [0x48] .ldCB, reads [0x49] .ldCC, reads [0x4A] .ldCD,
     reads [0x4B] .ldCE, reads [0x4C] .ldCH, reads [0x4D] .ldCL].all id = true := by decide

theorem test_decode_op_2 :
    [reads [0x4E] .ldCAtHl, reads [0x4F] .ldCA, reads [0x50] .ldDB,
     reads [0x51] .ldDC, reads [0x52] .ldDD, reads [0x53] .ldDE,
     reads [0x54] .ldDH, reads [0x55] .ldDL, reads [0x56] .ldDAtHl,
     reads [0x57] .ldDA, reads [0x58] .ldEB, reads [0x59] .ldEC,
     reads [0x5A] .ldED, reads [0x5B] .ldEE, reads [0x5C] .ldEH,
     reads [0x5D] .ldEL, reads [0x5E] .ldEAtHl, reads [0x5F] .ldEA,
     reads [0x60] .ldHB, reads [0x61] .ldHC, reads [0x62] .ldHD,
     reads [0x63] .ldHE, reads [0x64] .ldHH, reads [0x65] .ldHL,
     reads [0x66] .ldHAtHl, reads [0x67] .ldHA, reads [0x68] .ldLB,
     reads [0x69] .ldLC, reads [0x6A] .ldLD, reads [0x6B] .ldLE].all id = true := by decide

theorem test_decode_op_3 :
    [reads [0x6C] .ldLH, reads [0x6D] .ldLL, reads [0x6E] .ldLAtHl,
     reads [0x6F] .ldLA, reads [0x70] .ldAtHlB, reads [0x71] .ldAtHlC,
     reads [0x72] .ldAtHlD, reads [0x73] .ldAtHlE, reads [0x74] .ldAtHlH,
     reads [0x75] .ldAtHlL, reads [0x77] .ldAtHlA, reads [0x78] .ldAB,
     reads [0x79] .ldAC, reads [0x7A] .ldAD, reads [0x7B] .ldAE,
     reads [0x7C] .ldAH, reads [0x7D] .ldAL, reads [0x7E] .ldAAtHl,
     reads [0x7F] .ldAA, reads [0xA8] .xorB, reads [0xA9] .xorC,
     reads [0xAA] .xorD, reads [0xAB] .xorE, reads [0xAC] .xorH,
     reads [0xAD] .xorL, reads [0xAE] .xorAtHl, reads [0xAF] .xorA,
     reads [0xB0] .orB, reads [0xB1] .orC, reads [0xB2] .orD].all id = true := by decide

theorem test_decode_op_4 :
    [reads [0xB3] .orE, reads [0xB4] .orH, reads [0xB5] .orL,
     reads [0xB6] .orAtHl, reads [0xB7] .orA, reads [0xB8] .cpB,
     reads [0xB9] .cpC, reads [0xBA] .cpD, reads [0xBB] .cpE,
     reads [0xBC] .cpH, reads [0xBD] .cpL, reads [0xBE] .cpAtHl,
     reads [0xBF] .cpA, reads [0xC1] .popBc, reads [0xC5] .pushBc,
     reads [0xC9] .ret, reads [0xD1] .popDe, reads [0xD5] .pushDe,
     reads [0xE1] .popHl, reads [0xE5] .pushHl, reads [0xE9] .jpAtHl,
     reads [0xF1] .popAf, reads [0xF3] .di, reads [0xF5] .pushAf,
     reads [0xF9] .ldSpHl].all id = true := by decide

theorem test_decode_op_n_5 :
    [reads [0x06, 0xA5] (.ldBN 0xA5), reads [0x0E, 0xA5] (.ldCN 0xA5), reads [0x16, 0xA5] (.ldDN 0xA5),
     reads [0x1E, 0xA5] (.ldEN 0xA5), reads [0x26, 0xA5] (.ldHN 0xA5), reads [0x2E, 0xA5] (.ldLN 0xA5),
     reads [0x36, 0xA5] (.ldAtHlN 0xA5), reads [0x3E, 0xA5] (.ldAN 0xA5), reads [0xD3, 0xA5] (.outAtNA 0xA5),
     reads [0xEE, 0xA5] (.xorN 0xA5), reads [0xF6, 0xA5] (.orN 0xA5), reads [0xFE, 0xA5] (.cpN 0xA5)].all id = true := by decide

theorem test_decode_op_e_6 :
    [reads [0x18, 0x85] (.jrE 0x85), reads [0x20, 0x85] (.jrNzE 0x85), reads [0x28, 0x85] (.jrZE 0x85),
     reads [0x30, 0x85] (.jrNcE 0x85), reads [0x38, 0x85] (.jrCE 0x85)].all id = true := by decide

theorem test_decode_op_nn_7 :
    [reads [0x01, 0x34, 0x12] (.ldBcNn 0x1234), reads [0x11, 0x34, 0x12] (.ldDeNn 0x1234), reads [0x21, 0x34, 0x12] (.ldHlNn 0x1234),
     reads [0x31, 0x34, 0x12] (.ldSpNn 0x1234), reads [0x32, 0x34, 0x12] (.ldAtNnA 0x1234), reads [0x3A, 0x34, 0x12] (.ldAAtNn 0x1234),
     reads [0xC2, 0x34, 0x12] (.jpNzNn 0x1234), reads [0xC3, 0x34, 0x12] (.jpNn 0x1234), reads [0xC4, 0x34, 0x12] (.callNzNn 0x1234),
     reads [0xCA, 0x34, 0x12] (.jpZNn 0x1234), reads [0xCC, 0x34, 0x12] (.callZNn 0x1234), reads [0xCD, 0x34, 0x12] (.callNn 0x1234),
     reads [0xD2, 0x34, 0x12] (.jpNcNn 0x1234), reads [0xD4, 0x34, 0x12] (.callNcNn 0x1234), reads [0xDA, 0x34, 0x12] (.jpCNn 0x1234),
     reads [0xDC, 0x34, 0x12] (.callCNn 0x1234), reads [0xE2, 0x34, 0x12] (.jpPoNn 0x1234), reads [0xE4, 0x34, 0x12] (.callPoNn 0x1234),
     reads [0xEA, 0x34, 0x12] (.jpPeNn 0x1234), reads [0xEC, 0x34, 0x12] (.callPeNn 0x1234), reads [0xF2, 0x34, 0x12] (.jpPNn 0x1234),
     reads [0xF4, 0x34, 0x12] (.callPNn 0x1234), reads [0xFA, 0x34, 0x12] (.jpMNn 0x1234), reads [0xFC, 0x34, 0x12] (.callMNn 0x1234)].all id = true := by decide

theorem test_decode_ed_op_8 :
    [reads [0xED, 0x41] .outAtCB, reads [0xED, 0x46] .im0, reads [0xED, 0x49] .outAtCC,
     reads [0xED, 0x51] .outAtCD, reads [0xED, 0x56] .im1, reads [0xED, 0x59] .outAtCE,
     reads [0xED, 0x5E] .im2, reads [0xED, 0x61] .outAtCH, reads [0xED, 0x69] .outAtCL,
     reads [0xED, 0x79] .outAtCA, reads [0xED, 0xA0] .ldi, reads [0xED, 0xB0] .ldir].all id = true := by decide

theorem test_table_word_primary : decodeTableWord 8 0x78 = some .ldAB := by decide
theorem test_table_word_immediate_is_zero : decodeTableWord 8 0x21 = some (.ldHlNn 0) := by decide
theorem test_table_word_extended : decodeTableWord 16 0xEDB0 = some .ldir := by decide
theorem test_table_word_extended_first_byte_low : decodeTableWord 16 0xB0ED = some .ldir := by decide
theorem test_table_word_absent : decodeTableWord 8 0x76 = none := by decide

/-- H2, H4, H12, G11: absent in the table the byte was looked up in. -/
theorem test_absent_bytes : decode [0x76] = .error (.absent .primary 0x76) ∧
    decode [0xED, 0xED] = .error (.absent .extended 0xED) ∧
    decode [0xED, 0xA8] = .error (.absent .extended 0xA8) ∧
    decode [0xED, 0x71] = .error (.absent .extended 0x71) := ⟨rfl, rfl, rfl, rfl⟩

/-- R70: 99 primary and 244 extended values are absent, 156 and 12 present, and 0xED is the prefix. -/
theorem test_counts :
    ((List.range 256).filter fun n => absentPrimary (BitVec.ofNat 8 n)).length = 99 ∧
    ((List.range 256).filter fun n => (primaryTable (BitVec.ofNat 8 n)).isSome).length = 156 ∧
    ((List.range 256).filter fun n => (extendedTable (BitVec.ofNat 8 n)).isSome).length = 12 := by decide +kernel

/-! ## The word placed where a step fetches runs as the first instruction after reset -/

theorem test_fetch_word_primary :
    gives (State.reset.withFetchWord 8 0x33) (fun s => { s with sp := 1, pc := 1 }) = true := by decide
theorem test_fetch_word_extended :
    gives (State.reset.withFetchWord 16 0xED56) (fun s => { s with im := .im1, pc := 2 }) = true := by decide

/-- With nothing loaded the first step reads past the empty image (70_reset_and_hazards.md R205). -/
theorem test_reset_without_cartridge :
    gives State.reset (fun s => { s with fault := some (.busFault 0 .read 0) }) = true := by decide

/-! ## 8-bit loads -/

/-- A1. -/
theorem test_ld_b_c :
    gives { rom [0x41] with c := 0x5A, f := 0xFF }
      (fun s => { s with b := 0x5A, pc := 1 }) = true := by decide
/-- A15. -/
theorem test_ld_a_a :
    gives { rom [0x7F] with a := 0x80, f := 0xFF }
      (fun s => { s with pc := 1 }) = true := by decide
/-- A2. -/
theorem test_ld_a_hl_rom :
    gives { rom [0x7E, 0x00, 0x00, 0x00, 0x00, 0x99] with l := 0x05 }
      (fun s => { s with a := 0x99, pc := 1 }) = true := by decide
/-- A17. -/
theorem test_ld_h_hl_old_address :
    gives { rom [0x66] with h := 0xC0, l := 0x05, ram := [(0xC005, 0x12)] }
      (fun s => { s with h := 0x12, pc := 1 }) = true := by decide
/-- A3. -/
theorem test_ld_hl_e :
    gives { rom [0x73] with h := 0xC0, l := 0x10, e := 0x77 }
      (fun s => { s with ram := [(0xC010, 0x77)], pc := 1 }) = true := by decide
/-- A4. -/
theorem test_ld_hl_h :
    gives { rom [0x74] with h := 0xC1, l := 0xC1 }
      (fun s => { s with ram := [(0xC1C1, 0xC1)], pc := 1 }) = true := by decide
/-- A13. -/
theorem test_ld_hl_a_rom :
    gives { rom [0x77] with h := 0x40, a := 0x11 }
      (fun s => { s with pc := 1, fault := some (.busFault 0x4000 .write 1) }) = true := by decide
/-- A5. -/
theorem test_ld_d_n :
    gives (rom [0x16, 0x3C])
      (fun s => { s with d := 0x3C, pc := 2 }) = true := by decide
/-- A6. -/
theorem test_ld_hl_n :
    gives { rom [0x36, 0xA5] with h := 0xDF, l := 0xFF }
      (fun s => { s with ram := [(0xDFFF, 0xA5)], pc := 2 }) = true := by decide
/-- A16. -/
theorem test_ld_hl_n_immediate_missing :
    gives { rom [0x36] with h := 0xC0 }
      (fun s => { s with pc := 1, fault := some (.busFault 1 .read 1) }) = true := by decide
/-- A7. -/
theorem test_ld_a_bc :
    gives { rom [0x0A, 0, 0, 0, 0, 0, 0, 0, 0, 0, 0, 0, 0, 0, 0, 0, 0xEE] with c := 0x10 }
      (fun s => { s with a := 0xEE, pc := 1 }) = true := by decide
/-- A8. -/
theorem test_ld_a_de :
    gives { rom [0x1A] with d := 0xC0, ram := [(0xC000, 0x21)] }
      (fun s => { s with a := 0x21, pc := 1 }) = true := by decide
/-- A9. -/
theorem test_ld_bc_a :
    gives { rom [0x02] with b := 0xC1, c := 0x23, a := 0x9C }
      (fun s => { s with ram := [(0xC123, 0x9C)], pc := 1 }) = true := by decide
/-- A10. -/
theorem test_ld_de_a :
    gives { rom [0x12] with d := 0xDF, e := 0xFF, a := 0x01 }
      (fun s => { s with ram := [(0xDFFF, 0x01)], pc := 1 }) = true := by decide
/-- 40_load8.md R89, the example. -/
theorem test_ld_a_nn :
    gives { rom [0x3A, 0x00, 0xC0] with ram := [(0xC000, 0xB6)] }
      (fun s => { s with a := 0xB6, pc := 3 }) = true := by decide
/-- A14. -/
theorem test_ld_a_nn_unmapped :
    gives { rom [0x3A, 0x00, 0xE0] with a := 0x55 }
      (fun s => { s with pc := 3, fault := some (.busFault 0xE000 .read 3) }) = true := by decide
/-- A12. -/
theorem test_ld_nn_a :
    gives { rom [0x32, 0x00, 0xC0] with a := 0xB6 }
      (fun s => { s with ram := [(0xC000, 0xB6)], pc := 3 }) = true := by decide

/-- A18: the byte of RAM that was never written is the free value, whatever it is. -/
theorem test_ld_a_hl_unwritten : step { rom [0x7E] with h := 0xC0, l := 0x05 } =
    .next { rom [0x7E] with h := 0xC0, l := 0x05, a := Config.ramInit 0xC005, pc := 1 } := rfl

/-! ## 16-bit loads and the stack -/

/-- B1. -/
theorem test_ld_bc_nn :
    gives (rom [0x01, 0x34, 0x12])
      (fun s => { s with b := 0x12, c := 0x34, pc := 3 }) = true := by decide
/-- B2. -/
theorem test_ld_sp_nn :
    gives (rom [0x31, 0x00, 0xE0])
      (fun s => { s with sp := 0xE000, pc := 3 }) = true := by decide
/-- B12. -/
theorem test_ld_hl_nn_high_byte_missing :
    gives (rom [0x21, 0xFF])
      (fun s => { s with pc := 2, fault := some (.busFault 2 .read 2) }) = true := by decide
/-- B3. -/
theorem test_ld_sp_hl :
    gives { rom [0xF9] with h := 0xD1, l := 0x23 }
      (fun s => { s with sp := 0xD123, pc := 1 }) = true := by decide
/-- B4. -/
theorem test_push_bc :
    gives { rom [0xC5] with sp := 0xD000, b := 0x12, c := 0x34 }
      (fun s => { s with ram := [(0xCFFE, 0x34), (0xCFFF, 0x12)], sp := 0xCFFE, pc := 1 }) = true := by decide
/-- B5. -/
theorem test_push_af :
    gives { rom [0xF5] with sp := 0xE000, a := 0x12, f := 0x28 }
      (fun s => { s with ram := [(0xDFFE, 0x28), (0xDFFF, 0x12)], sp := 0xDFFE, pc := 1 }) = true := by decide
/-- B6. -/
theorem test_pop_af :
    gives { rom [0xF1] with sp := 0xD000, ram := [(0xD000, 0xFF), (0xD001, 0x12)] }
      (fun s => { s with f := 0xFF, a := 0x12, sp := 0xD002, pc := 1 }) = true := by decide
/-- B10. -/
theorem test_pop_hl_from_rom :
    gives { rom [0xE1, 0, 0, 0, 0, 0, 0, 0, 0, 0, 0, 0, 0, 0, 0, 0, 0xCD, 0xAB] with sp := 0x0010 }
      (fun s => { s with h := 0xAB, l := 0xCD, sp := 0x0012, pc := 1 }) = true := by decide
/-- B7. -/
theorem test_push_hl_reset_sp :
    gives { rom [0xE5] with h := 0xBE, l := 0xEF }
      (fun s => { s with sp := 0xFFFF, pc := 1, fault := some (.busFault 0xFFFF .write 1) }) = true := by decide
/-- B8. -/
theorem test_push_de_half :
    gives { rom [0xD5] with sp := 0xC001, d := 0xCA, e := 0xFE }
      (fun s => { s with ram := [(0xC000, 0xCA)], sp := 0xBFFF, pc := 1, fault := some (.busFault 0xBFFF .write 1) }) = true := by decide
/-- B13. -/
theorem test_push_hl_below_ram :
    gives { rom [0xE5] with sp := 0xC000, h := 0x12, l := 0x34 }
      (fun s => { s with sp := 0xBFFF, pc := 1, fault := some (.busFault 0xBFFF .write 1) }) = true := by decide
/-- B9. -/
theorem test_pop_bc_half :
    gives { rom [0xC1] with sp := 0xDFFF, ram := [(0xDFFF, 0x77)], b := 0x11, c := 0x11 }
      (fun s => { s with sp := 0xE000, pc := 1, fault := some (.busFault 0xE000 .read 1) }) = true := by decide
/-- B14. -/
theorem test_pop_af_unmapped :
    gives { rom [0xF1] with sp := 0xFFFF }
      (fun s => { s with pc := 1, fault := some (.busFault 0xFFFF .read 1) }) = true := by decide
/-- B11, the second step. -/
theorem test_pop_de_after_push_bc :
    gives { rom [0xC5, 0xD1] with pc := 1, sp := 0xCFFE, b := 0xA5, c := 0x5A, ram := [(0xCFFE, 0x5A), (0xCFFF, 0xA5)] }
      (fun s => { s with d := 0xA5, e := 0x5A, sp := 0xD000, pc := 2 }) = true := by decide

/-! ## Block copy -/

/-- C1. -/
theorem test_ldi :
    gives { rom [0xED, 0xA0, 0, 0, 0, 0, 0, 0, 0, 0, 0, 0, 0, 0, 0, 0, 0x5A] with l := 0x10, d := 0xC0, c := 1, f := 0xFF }
      (fun s => { s with ram := [(0xC000, 0x5A)], l := 0x11, e := 1, c := 0, pc := 2 }) = true := by decide
/-- C7. -/
theorem test_ldi_source_unmapped :
    gives { rom [0xED, 0xA0] with h := 0xFF, l := 0xFF, d := 0xC0, c := 1 }
      (fun s => { s with pc := 2, fault := some (.busFault 0xFFFF .read 2) }) = true := by decide
/-- C3.3, with the source bytes at 0x0002. -/
theorem test_ldir_last :
    gives { rom [0xED, 0xB0, 0x41, 0x42, 0x43] with l := 0x04, d := 0xC0, e := 2, c := 1, f := 0xD7 }
      (fun s => { s with ram := [(0xC002, 0x43)], l := 0x05, e := 3, c := 0, pc := 2 }) = true := by decide
/-- C4. -/
theorem test_ldir_bc_zero :
    gives { rom [0xED, 0xB0, 0, 0, 0, 0, 0, 0, 0, 0, 0, 0, 0, 0, 0, 0, 0x5A] with l := 0x10, d := 0xC0 }
      (fun s => { s with ram := [(0xC000, 0x5A)], l := 0x11, e := 1, b := 0xFF, c := 0xFF }) = true := by decide

/-! ## 8-bit logic and compare -/

/-- D1. -/
theorem test_xor_a :
    gives { rom [0xAF] with a := 0x5A, f := 0xFF }
      (fun s => { s with a := 0, f := 0x6C, pc := 1 }) = true := by decide
/-- D2. -/
theorem test_xor_c :
    gives { rom [0xA9] with a := 0x26, c := 0x56 }
      (fun s => { s with a := 0x70, f := 0x00, pc := 1 }) = true := by decide
/-- D13. -/
theorem test_xor_hl_unmapped :
    gives { rom [0xAE] with a := 0x41, h := 0xFF, l := 0xFF, f := 0x81 }
      (fun s => { s with pc := 1, fault := some (.busFault 0xFFFF .read 1) }) = true := by decide
/-- D4. -/
theorem test_xor_n :
    gives { rom [0xEE, 0xFF] with a := 0x0F }
      (fun s => { s with a := 0xF0, f := 0x84, pc := 2 }) = true := by decide
/-- D5. -/
theorem test_or_c :
    gives { rom [0xB1] with f := 0x13 }
      (fun s => { s with f := 0x44, pc := 1 }) = true := by decide
/-- D6. -/
theorem test_or_a :
    gives { rom [0xB7] with a := 0x80 }
      (fun s => { s with f := 0x80, pc := 1 }) = true := by decide
/-- D7. -/
theorem test_or_hl :
    gives { rom [0xB6] with a := 0x81, h := 0xC0, ram := [(0xC000, 0x02)] }
      (fun s => { s with a := 0x83, f := 0x80, pc := 1 }) = true := by decide
/-- D8. -/
theorem test_or_n :
    gives { rom [0xF6, 0x80] with a := 0x01 }
      (fun s => { s with a := 0x81, f := 0x84, pc := 2 }) = true := by decide
/-- D10. -/
theorem test_cp_b :
    gives { rom [0xB8] with a := 0x10, b := 0x01, f := 0x28 }
      (fun s => { s with f := 0x3A, pc := 1 }) = true := by decide
/-- D11. -/
theorem test_cp_a :
    gives { rom [0xBF] with a := 0xC3, f := 0x01 }
      (fun s => { s with f := 0x42, pc := 1 }) = true := by decide
/-- D12. -/
theorem test_cp_hl_unmapped :
    gives { rom [0xBE] with a := 0x41, h := 0xE0 }
      (fun s => { s with pc := 1, fault := some (.busFault 0xE000 .read 1) }) = true := by decide
/-- D9.2. -/
theorem test_cp_n_overflow :
    gives { rom [0xFE, 0x01] with a := 0x80 }
      (fun s => { s with f := 0x16, pc := 2 }) = true := by decide
/-- D9.11. -/
theorem test_cp_n_borrow :
    gives { rom [0xFE, 0x10] with a := 0x0F }
      (fun s => { s with f := 0x83, pc := 2 }) = true := by decide

/-- The eleven rows of D9, and the two with a carry-in that no instruction passes. -/
theorem test_subc_flags :
    [(subcFlags 0x00 0x01 false 0, 0x93), (subcFlags 0x80 0x01 false 0, 0x16), (subcFlags 0x7F 0xFF false 0, 0x87),
     (subcFlags 0x42 0x42 false 0, 0x42), (subcFlags 0x10 0x01 false 0, 0x12), (subcFlags 0x80 0x80 false 0, 0x42),
     (subcFlags 0xFF 0x00 false 0, 0x82), (subcFlags 0x00 0x00 false 0, 0x42), (subcFlags 0x7F 0x80 false 0, 0x87),
     (subcFlags 0x00 0x80 false 0, 0x87), (subcFlags 0x0F 0x10 false 0, 0x83),
     (subcFlags 0x10 0x0F true 0, 0x52), (subcFlags 0x00 0xFF true 0, 0x53)].all
      (fun p => decide (p.1 = BitVec.ofNat 8 p.2)) = true := by decide

/-! ## 16-bit arithmetic -/

/-- E1. -/
theorem test_add_hl_bc_half_carry :
    gives { rom [0x09] with h := 0x0F, l := 0xFF, c := 1 }
      (fun s => { s with h := 0x10, l := 0, f := 0x10, pc := 1 }) = true := by decide
/-- E3. -/
theorem test_add_hl_bc_keeps_flags :
    gives { rom [0x09] with h := 0x80, b := 0x80, f := 0xFF }
      (fun s => { s with h := 0, f := 0xED, pc := 1 }) = true := by decide
/-- E15. -/
theorem test_add_hl_hl :
    gives { rom [0x29] with h := 0xFF, l := 0xFF }
      (fun s => { s with l := 0xFE, f := 0x11, pc := 1 }) = true := by decide
/-- E5. -/
theorem test_add_hl_sp :
    gives { rom [0x39] with h := 0x12, l := 0x34, sp := 0xE000 }
      (fun s => { s with h := 0xF2, pc := 1 }) = true := by decide
/-- E6. -/
theorem test_add_hl_de :
    gives { rom [0x19] with f := 0x13 }
      (fun s => { s with f := 0, pc := 1 }) = true := by decide
/-- E9. -/
theorem test_inc_bc_wraps :
    gives { rom [0x03] with b := 0xFF, c := 0xFF, f := 0xFF }
      (fun s => { s with b := 0, c := 0, pc := 1 }) = true := by decide
/-- E11. -/
theorem test_inc_hl :
    gives { rom [0x23] with l := 0xFF }
      (fun s => { s with h := 0x01, l := 0, pc := 1 }) = true := by decide
/-- E14. -/
theorem test_inc_sp :
    gives { rom [0x33] with sp := 0xFFFF }
      (fun s => { s with sp := 0, pc := 1 }) = true := by decide
/-- E10. -/
theorem test_dec_sp :
    gives (rom [0x3B])
      (fun s => { s with sp := 0xFFFF, pc := 1 }) = true := by decide
/-- E12. -/
theorem test_dec_de :
    gives { rom [0x1B] with d := 0x01 }
      (fun s => { s with d := 0, e := 0xFF, pc := 1 }) = true := by decide
/-- E13. -/
theorem test_dec_bc :
    gives { rom [0x0B] with c := 1 }
      (fun s => { s with c := 0, pc := 1 }) = true := by decide

/-! ## Control transfer -/

/-- F1. -/
theorem test_jp_nn :
    gives (romAt 0x0019 [0xC3, 0x10, 0x00])
      (fun s => { s with pc := 0x0010 }) = true := by decide
/-- F2. -/
theorem test_jp_z_taken :
    gives { romAt 0x0013 [0xCA, 0x1C, 0x00] with f := 0x40 }
      (fun s => { s with pc := 0x001C }) = true := by decide
/-- F3. -/
theorem test_jp_z_not_taken :
    gives (romAt 0x0013 [0xCA, 0x1C, 0x00])
      (fun s => { s with pc := 0x0016 }) = true := by decide
/-- F4. -/
theorem test_jp_nz_taken :
    gives { rom [0xC2, 0x34, 0x12] with f := 0xBF }
      (fun s => { s with pc := 0x1234 }) = true := by decide
/-- F4. -/
theorem test_jp_nz_not_taken :
    gives { rom [0xC2, 0x34, 0x12] with f := 0x40 }
      (fun s => { s with pc := 3 }) = true := by decide
/-- F4. -/
theorem test_jp_nc_taken :
    gives { rom [0xD2, 0x34, 0x12] with f := 0xFE }
      (fun s => { s with pc := 0x1234 }) = true := by decide
/-- F4. -/
theorem test_jp_nc_not_taken :
    gives { rom [0xD2, 0x34, 0x12] with f := 0x01 }
      (fun s => { s with pc := 3 }) = true := by decide
/-- F4. -/
theorem test_jp_c_taken :
    gives { rom [0xDA, 0x34, 0x12] with f := 0x01 }
      (fun s => { s with pc := 0x1234 }) = true := by decide
/-- F4. -/
theorem test_jp_c_not_taken :
    gives { rom [0xDA, 0x34, 0x12] with f := 0xFE }
      (fun s => { s with pc := 3 }) = true := by decide
/-- F4. -/
theorem test_jp_po_taken :
    gives { rom [0xE2, 0x34, 0x12] with f := 0xFB }
      (fun s => { s with pc := 0x1234 }) = true := by decide
/-- F4. -/
theorem test_jp_po_not_taken :
    gives { rom [0xE2, 0x34, 0x12] with f := 0x04 }
      (fun s => { s with pc := 3 }) = true := by decide
/-- F4. -/
theorem test_jp_pe_taken :
    gives { rom [0xEA, 0x34, 0x12] with f := 0x04 }
      (fun s => { s with pc := 0x1234 }) = true := by decide
/-- F4. -/
theorem test_jp_pe_not_taken :
    gives { rom [0xEA, 0x34, 0x12] with f := 0xFB }
      (fun s => { s with pc := 3 }) = true := by decide
/-- F4. -/
theorem test_jp_p_taken :
    gives { rom [0xF2, 0x34, 0x12] with f := 0x7F }
      (fun s => { s with pc := 0x1234 }) = true := by decide
/-- F4. -/
theorem test_jp_p_not_taken :
    gives { rom [0xF2, 0x34, 0x12] with f := 0x80 }
      (fun s => { s with pc := 3 }) = true := by decide
/-- F4. -/
theorem test_jp_m_taken :
    gives { rom [0xFA, 0x34, 0x12] with f := 0x80 }
      (fun s => { s with pc := 0x1234 }) = true := by decide
/-- F4. -/
theorem test_jp_m_not_taken :
    gives { rom [0xFA, 0x34, 0x12] with f := 0x7F }
      (fun s => { s with pc := 3 }) = true := by decide
/-- F5. -/
theorem test_jp_hl :
    gives { rom [0xE9] with h := 0xC0 }
      (fun s => { s with pc := 0xC000 }) = true := by decide
/-- F6. -/
theorem test_jr_back :
    gives (romAt 0x0012 [0x18, 0xF7])
      (fun s => { s with pc := 0x000B }) = true := by decide
/-- F7. -/
theorem test_jr_wraps :
    gives (rom [0x18, 0xFC])
      (fun s => { s with pc := 0xFFFE }) = true := by decide
/-- F11. -/
theorem test_jr_nz_taken :
    gives (romAt 0x0012 [0x20, 0xF7])
      (fun s => { s with pc := 0x000B }) = true := by decide
/-- F12. -/
theorem test_jr_nz_not_taken :
    gives { romAt 0x0012 [0x20, 0xF7] with f := 0x40 }
      (fun s => { s with pc := 0x0014 }) = true := by decide
/-- F13. -/
theorem test_jr_c :
    gives { rom [0x38, 0x10] with f := 0x01 }
      (fun s => { s with pc := 0x0012 }) = true := by decide
/-- F14. -/
theorem test_jr_nc :
    gives { rom [0x30, 0x10] with f := 0x01 }
      (fun s => { s with pc := 2 }) = true := by decide
/-- F15. -/
theorem test_jr_z :
    gives { rom [0x28, 0x05] with f := 0x40 }
      (fun s => { s with pc := 7 }) = true := by decide
/-- F16. -/
theorem test_call_nn :
    gives { romAt 0x0006 [0xCD, 0x10, 0x00] with sp := 0xE000 }
      (fun s => { s with ram := [(0xDFFE, 0x09), (0xDFFF, 0x00)], sp := 0xDFFE, pc := 0x0010 }) = true := by decide
/-- F20. -/
theorem test_call_nn_reset_sp :
    gives (rom [0xCD, 0x10, 0x00])
      (fun s => { s with sp := 0xFFFF, pc := 3, fault := some (.busFault 0xFFFF .write 3) }) = true := by decide
/-- F17. -/
theorem test_call_c_not_taken :
    gives { romAt 0x0100 [0xDC, 0x00, 0x02] with sp := 0xD000 }
      (fun s => { s with pc := 0x0103 }) = true := by decide +kernel
/-- F18. -/
theorem test_call_c_taken :
    gives { romAt 0x0100 [0xDC, 0x00, 0x02] with sp := 0xD000, f := 0x01 }
      (fun s => { s with ram := [(0xCFFE, 0x03), (0xCFFF, 0x01)], sp := 0xCFFE, pc := 0x0200 }) = true := by decide +kernel
/-- F23. -/
theorem test_call_nz_operand_missing :
    gives { rom [0xC4, 0x34] with sp := 0xD000, f := 0x40 }
      (fun s => { s with pc := 2, fault := some (.busFault 2 .read 2) }) = true := by decide
/-- F19. -/
theorem test_ret :
    gives { rom [0xC9] with sp := 0xDFFE, ram := [(0xDFFE, 0x09), (0xDFFF, 0x00)] }
      (fun s => { s with pc := 0x0009, sp := 0xE000 }) = true := by decide
/-- F21. -/
theorem test_ret_above_ram :
    gives { rom [0xC9] with sp := 0xE000 }
      (fun s => { s with pc := 1, fault := some (.busFault 0xE000 .read 1) }) = true := by decide

/-! ## Interrupt control and output -/

/-- G1. -/
theorem test_di :
    gives { rom [0xF3] with iff1 := true, iff2 := true }
      (fun s => { s with iff1 := false, iff2 := false, pc := 1 }) = true := by decide
/-- G3. -/
theorem test_im_0 :
    gives { rom [0xED, 0x46] with im := .im2 }
      (fun s => { s with im := .im0, pc := 2 }) = true := by decide
/-- G4. -/
theorem test_im_1 :
    gives (rom [0xED, 0x56])
      (fun s => { s with im := .im1, pc := 2 }) = true := by decide
/-- G5. -/
theorem test_im_2 :
    gives (rom [0xED, 0x5E])
      (fun s => { s with im := .im2, pc := 2 }) = true := by decide
/-- G6. -/
theorem test_out_n_a :
    gives { rom [0xD3, 0xFD] with a := 0x41 }
      (fun s => { s with ports := [⟨0xFD, 0x41⟩], pc := 2 }) = true := by decide
/-- G8. -/
theorem test_out_c_b :
    gives { rom [0xED, 0x41] with b := 0x12, c := 0xFD, f := 0xFF }
      (fun s => { s with ports := [⟨0xFD, 0x12⟩], pc := 2 }) = true := by decide
/-- G9. -/
theorem test_out_c_c :
    gives { rom [0xED, 0x49] with c := 0x07 }
      (fun s => { s with ports := [⟨0x07, 0x07⟩], pc := 2 }) = true := by decide
/-- G10, behind an earlier write. -/
theorem test_out_c_a_appends :
    gives { rom [0xED, 0x79] with b := 0xFF, c := 0xFD, a := 0x0A, ports := [⟨0, 0x41⟩] }
      (fun s => { s with ports := [⟨0, 0x41⟩, ⟨0xFD, 0x0A⟩], pc := 2 }) = true := by decide

/-- G6, G7: port 0xFD reaches the console, port 0 is only logged. -/
theorem test_console :
    State.console { State.reset with ports := [⟨0xFD, 0x41⟩, ⟨0, 0x42⟩] } = [0x41] ∧
    State.diagnosticLog { State.reset with ports := [⟨0xFD, 0x41⟩, ⟨0, 0x42⟩] } = [⟨0, 0x42⟩] := by decide

/-! ## Faults and reset -/

/-- H1. -/
theorem test_nop_absent :
    gives (rom [0x00])
      (fun s => { s with pc := 1, fault := some (.decodeFault .primary 0x00 1) }) = true := by decide
/-- H4. -/
theorem test_prefix_does_not_chain :
    gives (rom [0xED, 0xED])
      (fun s => { s with pc := 2, fault := some (.decodeFault .extended 0xED 2) }) = true := by decide
/-- H5. -/
theorem test_cb_is_no_prefix :
    gives (rom [0xCB, 0x00])
      (fun s => { s with pc := 1, fault := some (.decodeFault .primary 0xCB 1) }) = true := by decide
/-- G11. -/
theorem test_out_c_0_absent :
    gives { rom [0xED, 0x71] with c := 0xFD }
      (fun s => { s with pc := 2, fault := some (.decodeFault .extended 0x71 2) }) = true := by decide
/-- H8. -/
theorem test_extended_opcode_missing :
    gives (rom [0xED])
      (fun s => { s with pc := 1, fault := some (.busFault 1 .read 1) }) = true := by decide
/-- H9. -/
theorem test_fetch_unmapped :
    gives { rom [0x00] with pc := 0xE000 }
      (fun s => { s with fault := some (.busFault 0xE000 .read 0xE000) }) = true := by decide
/-- H13. -/
theorem test_operand_past_ram :
    gives { rom [0x00] with pc := 0xDFFF, ram := [(0xDFFF, 0x3A)] }
      (fun s => { s with pc := 0xE000, fault := some (.busFault 0xE000 .read 0xE000) }) = true := by decide

/-- H11: the latch answers every later step request with the record of H1. -/
theorem test_latch : step { rom [0x00] with pc := 1, fault := some (.decodeFault .primary 0x00 1) } =
    .fault (.decodeFault .primary 0x00 1) := rfl

/-- Reset is the only way out of the Faulted condition (70_reset_and_hazards.md R200). -/
theorem test_reset_clears_the_latch :
    State.applyReset { rom [0x33] with pc := 1, sp := 7, fault := some (.busFault 1 .read 1) } = rom [0x33] := by decide

/-! ## Witnesses: a state and operands that meet the hypotheses of each statement that has some

One line per clause, at boundary values of its range. -/

/-- A state with readable code and data: BC, DE and HL at the ends of the windows, SP where two bytes fit. -/
def sample : State :=
  { rom [0x21, 0xFF] with d := 0xDF, e := 0xFF, sp := 0xE000, ram := [(0xC000, 0x55), (0xDFFF, 0x77)] }

theorem witness_RegularFieldsSelectTheOperands :
    condCode .nz = some 0 ∧ condCode .m = some 7 ∧ condCode JrCond.nz.cond = some 0 ∧
    condCode JrCond.c.cond = some 3 := by decide

theorem witness_DecodedBytesAreTheEncoding : decode [0x3E, 0x41, 0x76] = .ok (.ldAN 0x41, [0x76]) := rfl

theorem witness_StepRunsTheDecodedInstruction :
    (rom [0x3E, 0x41]).Running ∧ CodeAt (rom [0x3E, 0x41]) [0x3E, 0x41] ∧
    decode [0x3E, 0x41] = .ok (.ldAN 0x41, []) :=
  ⟨rfl, by unfold CodeAt; decide, rfl⟩

theorem witness_AbsentOpcodeLatchesADecodeFault :
    ((rom [0x00]).Running ∧ CodeAt (rom [0x00]) [0x00] ∧ absentPrimary 0x00 = true) ∧
    ((rom [0xFF]).Running ∧ CodeAt (rom [0xFF]) [0xFF] ∧ absentPrimary 0xFF = true) ∧
    ((rom [0xED, 0xED]).Running ∧ CodeAt (rom [0xED, 0xED]) [0xED, 0xED] ∧ (0xED : Byte) ∉ extendedValues) :=
  ⟨⟨rfl, by unfold CodeAt; decide, by decide⟩, ⟨rfl, by unfold CodeAt; decide, by decide⟩,
    ⟨rfl, by unfold CodeAt; decide, by decide⟩⟩

theorem witness_UnreadableInstructionByteLatchesABusFault :
    ((rom [0x21, 0xFF]).Running ∧ CodeAt (rom [0x21, 0xFF]) [0x21, 0xFF] ∧
      decode [0x21, 0xFF] = .error .truncated ∧
      (rom [0x21, 0xFF]).readByte ((rom [0x21, 0xFF]).past 2).pc = none) ∧
    ((rom [0xED]).Running ∧ CodeAt (rom [0xED]) [0xED] ∧ decode [0xED] = .error .truncated ∧
      (rom [0xED]).readByte ((rom [0xED]).past 1).pc = none) ∧
    (State.reset.Running ∧ CodeAt State.reset [] ∧ decode [] = .error .truncated ∧
      State.reset.readByte (State.reset.past 0).pc = none) :=
  ⟨⟨rfl, by unfold CodeAt; decide, rfl, by decide⟩, ⟨rfl, by unfold CodeAt; decide, rfl, by decide⟩,
    ⟨rfl, by unfold CodeAt; decide, rfl, by decide⟩⟩

theorem witness_OnlyALatchedFaultStopsTheMachine :
    State.fault { rom [] with fault := some (.busFault 0 .read 0) } = some (.busFault 0 .read 0) ∧
    (rom []).Running := ⟨rfl, rfl⟩

theorem witness_StepAgreesWithVisit : (rom [0xCD, 0x10, 0x00]).Running := rfl

/-- A state with a written byte of RAM in which the next step stores. -/
theorem witness_EveryStepKeepsTheInvariant :
    State.Inv { rom [0x12] with d := 0xDF, e := 0xFF, ram := [(0xC000, 0x55)] } ∧
    ∃ t, step { rom [0x12] with d := 0xDF, e := 0xFF, ram := [(0xC000, 0x55)] } = .next t :=
  ⟨⟨by decide, fun _ h => nomatch h⟩, _, rfl⟩

theorem witness_NoStepChangesInertState : ∃ t, step (rom [0x33]) = .next t := ⟨_, rfl⟩

theorem witness_OnlyDiAndImChangeInterruptState :
    (∃ t, exec .di sample = .next t) ∧ (∃ t, exec (.im .im1) sample = .next t) ∧ Instr.im1 ≠ .di ∧
    ∀ m, Instr.di ≠ .im m :=
  ⟨⟨_, rfl⟩, ⟨_, rfl⟩, by decide, by intro m; cases m <;> decide⟩

theorem witness_OnlyTheFlagInstructionsChangeF :
    (∃ t, exec .ldi sample = .next t) ∧ ¬ writesFlags .ldi ∧ (∃ t, exec .cpB sample = .next t) ∧
    Instr.cpB ≠ .popAf := by
  refine ⟨⟨_, rfl⟩, ?_, ⟨_, rfl⟩, by decide⟩
  rintro (⟨op, src, h⟩ | ⟨src, h⟩ | ⟨p, h⟩ | h)
  · cases op <;> rcases src with r | _ | n <;> first | cases h | (cases r <;> cases h)
  · rcases src with r | _ | n <;> first | cases h | (cases r <;> cases h)
  · cases p <;> cases h
  · cases h

theorem witness_OnlyTheStackInstructionsChangeSp :
    (∃ t, exec .addHlSp sample = .next t) ∧ ¬ writesSp .addHlSp := by
  refine ⟨⟨_, rfl⟩, ?_⟩
  rintro (⟨nn, h⟩ | h | h | h | ⟨q, h⟩ | ⟨q, h⟩ | ⟨cc, nn, h⟩ | h)
  all_goals first | cases h | (cases q <;> cases h) | (cases cc <;> cases h)

/-- PUSH BC at the top of RAM: the byte above the two it stores, and the one below. -/
theorem witness_OnlyStoredBytesChange :
    (∃ t, exec .pushBc sample = .next t) ∧ (0xE000 : Word) ∉ storedAddrs .pushBc sample ∧
    (0xDFFD : Word) ∉ storedAddrs .pushBc sample := ⟨⟨_, rfl⟩, by decide, by decide⟩

theorem witness_PortWritesAreOnlyAppendedByOut :
    (∃ t, step (rom [0xD3, 0xFD]) = .next t) ∧ (∃ t, exec .ldi sample = .next t) ∧ ¬ isOut .ldi := by
  refine ⟨⟨_, rfl⟩, ⟨_, rfl⟩, ?_⟩
  rintro (⟨n, h⟩ | ⟨r, h⟩)
  · cases h
  · cases r <;> cases h

/-- The first byte of the image, its last, the first past it, the last of the window. -/
theorem witness_RomWindowIsReadOnlyAndBoundsChecked :
    sample.Running ∧ (0x0000 : Word).toNat < sample.cart.length ∧ (0x0001 : Word).toNat < sample.cart.length ∧
    sample.cart.length ≤ (0x0002 : Word).toNat ∧ (0xBFFF : Word).toNat ≤ 0xBFFF := ⟨rfl, by decide⟩

/-- Both ends of the window, a written byte and one that was not. -/
theorem witness_RamReadsGiveTheLastByteWritten :
    0xC000 ≤ (0xC000 : Word).toNat ∧ (0xDFFF : Word).toNat ≤ 0xDFFF ∧ sample.ram.get? 0xC001 = none ∧
    sample.ram.get? 0xDFFF = some 0x77 := by decide

theorem witness_UnmappedAccessesRaiseBusFaults :
    State.Running { sample with pc := 0xE000 } ∧ 0xE000 ≤ (0xE000 : Word).toNat ∧
    0xE000 ≤ (0xFFFF : Word).toNat ∧ State.pc { sample with pc := 0xE000 } = 0xE000 :=
  ⟨rfl, by decide, by decide, rfl⟩

theorem witness_FetchHelpersReadAtPcAndAdvanceIt :
    sample.Running ∧ sample.readByte sample.pc = some 0x21 ∧ sample.readByte (sample.pc + 1) = some 0xFF ∧
    State.readByte { sample with pc := 2 } 2 = none ∧
    (State.readByte { sample with pc := 1 } 1 = some 0xFF ∧ State.readByte { sample with pc := 1 } (1 + 1) = none) :=
  ⟨rfl, by decide⟩

theorem witness_NextFetchSeesTheStore :
    (∃ t, memWrite 0xC000 0x41 sample = .ok () t) ∧ ∃ t, memWrite 0xDFFF 0x41 sample = .ok () t :=
  ⟨⟨_, rfl⟩, _, rfl⟩

/-- Both ends of the values of SP that admit a push (70_reset_and_hazards.md R204). -/
theorem witness_PushThenPopReturnsTheValue :
    (inRam (State.sp { sample with sp := 0xC002 } - 1) = true ∧
      inRam (State.sp { sample with sp := 0xC002 } - 2) = true) ∧
    (inRam (sample.sp - 1) = true ∧ inRam (sample.sp - 2) = true) ∧ cond .nz sample = true := by decide

theorem witness_MemoryLoadsReadOneByte :
    (sample.Running ∧ sample.readByte (sample.pairRead .hl) = some 0x21 ∧
      sample.readByte (sample.pairRead .bc) = some 0x21 ∧ sample.readByte (sample.pairRead .de) = some 0x77 ∧
      sample.readByte 0xC000 = some 0x55) ∧
    (State.readByte { sample with h := 0xE0 } (State.pairRead { sample with h := 0xE0 } .hl) = none ∧
      State.readByte { sample with b := 0xFF, c := 0xFF }
        (State.pairRead { sample with b := 0xFF, c := 0xFF } .bc) = none ∧
      State.readByte { sample with d := 0, e := 2 } (State.pairRead { sample with d := 0, e := 2 } .de) = none ∧
      sample.readByte 0xBFFF = none) := ⟨⟨rfl, by decide⟩, by decide⟩

theorem witness_StoresWriteOneByteOfRam :
    inRam (State.pairRead { sample with h := 0xC0 } .hl) = true ∧
    inRam (State.pairRead { sample with b := 0xC0 } .bc) = true ∧ inRam (sample.pairRead .de) = true ∧
    inRam 0xC000 = true ∧ inRam 0xDFFF = true := by decide

theorem witness_StoresOutsideRamRaiseBusFaults :
    sample.Running ∧ inRam (sample.pairRead .hl) = false ∧ inRam (sample.pairRead .bc) = false ∧
    inRam (State.pairRead { sample with d := 0xE0, e := 0 } .de) = false ∧ inRam 0xBFFF = false ∧
    inRam 0xE000 = false := ⟨rfl, by decide⟩

theorem witness_PushStoresThePairBelowSp :
    (inRam (State.sp { sample with sp := 0xC002 } - 1) = true ∧
      inRam (State.sp { sample with sp := 0xC002 } - 2) = true) ∧
    inRam (sample.sp - 1) = true ∧ inRam (sample.sp - 2) = true := by decide

theorem witness_PopLoadsThePairAtSp :
    State.readByte { sample with sp := 0 } 0 = some 0x21 ∧
    State.readByte { sample with sp := 0 } (0 + 1) = some 0xFF := by decide

/-- SP = 0xC000, 0xC001, 0xE000 and 0xDFFF: the first or the second byte of a push or of a pop fails. -/
theorem witness_FaultingStackTransfersKeepPartialEffects :
    (sample.Running ∧ cond .always sample = true) ∧
    inRam ((0xC000 : Word) - 1) = false ∧
    (inRam ((0xC001 : Word) - 1) = true ∧ inRam ((0xC001 : Word) - 2) = false) ∧
    sample.readByte 0xE000 = none ∧
    ((sample.readByte 0xDFFF).isSome = true ∧ sample.readByte (0xDFFF + 1) = none) :=
  ⟨⟨rfl, rfl⟩, by decide⟩

theorem witness_LdiCopiesOneByte :
    (sample.readByte (sample.pairRead .hl) = some 0x21 ∧ inRam (sample.pairRead .de) = true) ∧
    (State.Running { sample with h := 0xE0 } ∧
      State.readByte { sample with h := 0xE0 } (State.pairRead { sample with h := 0xE0 } .hl) = none) ∧
    (State.Running { sample with d := 0xBF } ∧
      (State.readByte { sample with d := 0xBF } (State.pairRead { sample with d := 0xBF } .hl)).isSome = true ∧
      inRam (State.pairRead { sample with d := 0xBF } .de) = false) :=
  ⟨by decide, ⟨rfl, by decide⟩, ⟨rfl, by decide⟩⟩

/-- The same three, with BC = 0 and with BC = 1. -/
theorem witness_LdirCopiesOneByteAndRepeats :
    (sample.readByte (sample.pairRead .hl) = some 0x21 ∧ inRam (sample.pairRead .de) = true ∧
      sample.pairRead .bc = 0) ∧
    (State.readByte { sample with c := 1 } (State.pairRead { sample with c := 1 } .hl) = some 0x21 ∧
      inRam (State.pairRead { sample with c := 1 } .de) = true ∧ State.pairRead { sample with c := 1 } .bc = 1) ∧
    (State.Running { sample with h := 0xE0 } ∧
      State.readByte { sample with h := 0xE0 } (State.pairRead { sample with h := 0xE0 } .hl) = none) ∧
    (State.Running { sample with d := 0xBF } ∧
      (State.readByte { sample with d := 0xBF } (State.pairRead { sample with d := 0xBF } .hl)).isSome = true ∧
      inRam (State.pairRead { sample with d := 0xBF } .de) = false) :=
  ⟨by decide, by decide, ⟨rfl, by decide⟩, ⟨rfl, by decide⟩⟩

/-- The LDIR of vector C3, with its source bytes at 0x0002. -/
def ldirStart : State := { rom [0xED, 0xB0, 0x41, 0x42, 0x43] with l := 0x02, d := 0xC0, c := 3 }

theorem witness_LdirCopiesABlockInOneStepPerByte :
    ldirStart.Running ∧ CodeAt ldirStart [0xED, 0xB0] ∧ (ldirStart.pairRead .bc).toNat = 3 ∧ 0 < 3 ∧
    (∀ k, k < 3 → (ldirStart.readByte (ldirStart.pairRead .hl + BitVec.ofNat 16 k)).isSome = true) ∧
    (∀ k, k < 3 → inRam (ldirStart.pairRead .de + BitVec.ofNat 16 k) = true) ∧
    (∀ j k, j < 3 → k < 3 →
      ldirStart.pairRead .hl + BitVec.ofNat 16 j ≠ ldirStart.pairRead .de + BitVec.ofNat 16 k) ∧
    (∀ k, k < 3 → ldirStart.pc ≠ ldirStart.pairRead .de + BitVec.ofNat 16 k ∧
      ldirStart.pc + 1 ≠ ldirStart.pairRead .de + BitVec.ofNat 16 k) := by
  refine ⟨rfl, by unfold CodeAt; decide, by decide, by decide, by decide, by decide, ?_, by decide⟩
  have h : ∀ j, j < 3 → ∀ k, k < 3 →
      ldirStart.pairRead .hl + BitVec.ofNat 16 j ≠ ldirStart.pairRead .de + BitVec.ofNat 16 k := by decide
  exact fun j k hj hk => h j hj k hk

theorem witness_LogicSetsAccumulatorAndFlags :
    aluValue sample (.reg .d) = some 0xDF ∧ aluValue sample .atHl = some 0x21 ∧
    aluValue sample (.imm 0xFF) = some 0xFF := by decide

theorem witness_CompareSetsTheFlagsOfTheDifference :
    aluValue sample (.reg .a) = some 0x00 ∧ aluValue sample .atHl = some 0x21 ∧
    aluValue sample (.imm 0x80) = some 0x80 := by decide

theorem witness_UnreadableAluOperandLeavesAccumulatorAndFlags :
    State.Running { sample with h := 0xE0 } ∧
    State.readByte { sample with h := 0xE0 } (State.pairRead { sample with h := 0xE0 } .hl) = none :=
  ⟨rfl, by decide⟩

theorem witness_LogicAndCompareIdentities :
    aluValue sample (.reg .a) = some 0x00 ∧ (0x00 : Byte) = sample.a ∧ aluValue sample .atHl = some 0x21 := by
  decide

theorem witness_JumpsSetPcIffTheConditionHolds : cond .p sample = true ∧ cond .m sample = false := by decide

theorem witness_RelativeJumpsAddTheSignedDisplacement :
    cond JrCond.always.cond sample = true ∧ cond JrCond.nc.cond sample = true ∧
    cond JrCond.c.cond sample = false := by decide

theorem witness_CallsPushTheReturnAddress :
    (cond .po sample = true ∧ inRam (sample.sp - 1) = true ∧ inRam (sample.sp - 2) = true) ∧
    cond .pe sample = false := by decide

theorem witness_ReturnPopsPc :
    State.readByte { sample with sp := 0 } 0 = some 0x21 ∧
    State.readByte { sample with sp := 0 } (0 + 1) = some 0xFF := by decide

theorem witness_ResetZeroesTheCore : inRam 0xC000 = true ∧ inRam 0xDFFF = true := by decide

theorem witness_FirstPushWithResetSpFaults :
    (rom [0xC5]).Running ∧ (rom [0xC5]).sp = State.reset.sp ∧ cond .always (rom [0xC5]) = true := ⟨rfl, rfl, rfl⟩

end Sys2Proof.Tests
end

section
/-! The fetch of bytes that decode, and the step of the instruction they decode to. -/

namespace Sys2Proof.Machine

variable {s : State} {bytes : List Byte} {i : Instr}

/-- Two bytes of code at PC are what `next16` reads, low byte first. -/
theorem next16_of_codeAt {lo hi : Byte} (h : CodeAt s (lo :: hi :: bytes)) :
    next16 s = .ok (joinBytes hi lo) (s.past 2) := by
  have hlo : next8 s = .ok lo (s.setPc (s.pc + 1)) := next8_of_codeAt h
  have hhi := next8_of_codeAt (codeAt_cons.mp h).2
  simp only [next16, hlo, hhi, Res.andThen, past_succ, past_zero]

/-- On the bytes at PC, the fetch of an entry's immediates agrees with the decoder that consumes them all. -/
theorem fetchEntry_of_decodeEntry {t : Table} {op : Byte} {e : Option Entry} (hcode : CodeAt s bytes)
    (hdec : decodeEntry t op e bytes = .ok (i, [])) :
    fetchEntry t op e s = .ok i (s.past bytes.length) := by
  match e, bytes, hdec with
  | some (.plain _), [], rfl => rw [List.length_nil, past_zero]; rfl
  | some (.imm8 _), [_], rfl =>
    simp only [fetchEntry, next8_of_codeAt hcode, Res.andThen, List.length_cons, List.length_nil, past_succ,
      past_zero]
  | some (.imm16 _), [_, _], rfl =>
    simp only [fetchEntry, next16_of_codeAt hcode, Res.andThen, List.length_cons, List.length_nil]

/-- On the bytes at PC, the fetch agrees with the decoder that consumes them all (30_encoding.md R65, R66). -/
theorem fetch_of_decode (hcode : CodeAt s bytes) (hdec : decode bytes = .ok (i, [])) :
    fetch s = .ok i (s.past bytes.length) := by
  rcases decode_cases bytes with rfl | rfl | ⟨op, bs, rfl, hd⟩ | ⟨op, bs, hop, rfl, hd⟩
  · rw [decode_nil] at hdec; cases hdec
  · rw [decode_prefix_nil] at hdec; cases hdec
  · have htail := (codeAt_cons.mp hcode).2
    have hentry := fetchEntry_of_decodeEntry (codeAt_cons.mp htail).2 (hd.symm.trans hdec)
    simp only [fetch, next8_of_codeAt hcode, next8_of_codeAt htail, Res.andThen, if_true, hentry,
      List.length_cons, past_succ]
  · have hentry := fetchEntry_of_decodeEntry (codeAt_cons.mp hcode).2 (hd.symm.trans hdec)
    simp only [fetch, next8_of_codeAt hcode, Res.andThen, hop, if_false, hentry, List.length_cons, past_succ]

/-- Settles O6: the fetch of code that decodes ends with the decoded instruction and PC past its bytes, and a
step runs what its fetch ends with. -/
theorem stepRunsTheDecodedInstruction : Obligations.StepRunsTheDecodedInstruction :=
  fun _ _ _ hrun hcode hdec => step_of_fetch_ok hrun (fetch_of_decode hcode hdec)

end Sys2Proof.Machine
end

section
/-! The invariant of the machine across an operation, a fetch and a step (10_state.md R31, 60_exceptions.md
R181): a meaning runs with no fault latched, and a record it latches is genuine when it is latched. -/

namespace Sys2Proof.Machine

variable {s t : State} {a : Word} {α β : Type}

/-- No fault is latched and RAM is canonical: what a meaning runs in, and ends in unless it raises. -/
def State.Ready (s : State) : Prop := s.Running ∧ s.ram.wf = true

theorem State.Ready.inv (h : s.Ready) : s.Inv := by
  obtain ⟨hrun, hwf⟩ := h
  exact ⟨hwf, fun record hr => absurd (hrun.symm.trans hr) nofun⟩

/-- A state is ready by its fault latch and its RAM alone. -/
theorem State.Ready.congr (h : s.Ready) (hf : t.fault = s.fault) (hr : t.ram = s.ram) : t.Ready :=
  ⟨hf.trans h.1, hr ▸ h.2⟩

theorem State.Ready.setPc (h : s.Ready) (v : Word) : (s.setPc v).Ready := h.congr rfl rfl

theorem State.Ready.setSp (h : s.Ready) (v : Word) : (s.setSp v).Ready := h.congr rfl rfl

theorem State.Ready.pairWrite (h : s.Ready) (p : Reg16) (v : Word) : (s.pairWrite p v).Ready :=
  h.congr (State.pairWrite_fault ..) (State.pairWrite_ram ..)

theorem State.Ready.ite (hs : s.Ready) (ht : t.Ready) (b : Prop) [Decidable b] : (if b then s else t).Ready := by
  split
  · exact hs
  · exact ht

/-! ## Raising -/

/-- Latching a record takes no cause away: it changes nothing that the Bus reads. -/
theorem Fault.genuine_raise (record : Fault) (k : Word → Fault) :
    record.Genuine (s.raise k) ↔ record.Genuine s := by
  rcases record with ⟨_ | _, op, pc⟩ | ⟨a, _ | _, pc⟩ <;> simp [Fault.Genuine]

theorem State.Ready.raise_inv (h : s.Ready) {k : Word → Fault} (hpc : (k s.pc).pc = s.pc)
    (hg : (k s.pc).Genuine s) : (s.raise k).Inv := by
  obtain ⟨hrun, hwf⟩ := h
  refine ⟨by rw [State.raise_ram]; exact hwf, fun record hr => ?_⟩
  rw [State.raise_of_running s k hrun] at hr
  obtain rfl : k s.pc = record := Option.some.inj hr
  exact ⟨by rw [State.raise_pc]; exact hpc, (Fault.genuine_raise _ _).mpr hg⟩

/-! ## The outcome of a statement -/

/-- Going on, the statement has left a ready state; having raised, it has left one with a genuine record. -/
def Res.KeepsInv : Res α → Prop
  | .ok _ t => t.Ready
  | .raised t => t.Inv

theorem Res.KeepsInv.state_inv {x : Res α} (h : x.KeepsInv) : x.state.Inv := by
  cases x with
  | ok v t => exact State.Ready.inv h
  | raised t => exact h

theorem Res.KeepsInv.andThen {x : Res α} {k : α → State → Res β} (hx : x.KeepsInv)
    (hk : ∀ v t, t.Ready → (k v t).KeepsInv) : (x.andThen k).KeepsInv := by
  cases x with
  | ok v t => exact hk v t hx
  | raised t => exact hx

theorem State.Ready.memRead_keepsInv (h : s.Ready) (a : Word) : (memRead a s).KeepsInv := by
  rcases memRead_cases a s with ⟨v, -, he⟩ | ⟨ha, he⟩ <;> rw [he]
  · exact h
  · exact h.raise_inv rfl ha

theorem State.Ready.memWrite_keepsInv (h : s.Ready) (a : Word) (v : Byte) : (memWrite a v s).KeepsInv := by
  rcases memWrite_cases a v s with ⟨ha, he⟩ | ⟨ha, he⟩ <;> rw [he]
  · exact ⟨h.1, wf_store s v ha h.2⟩
  · exact h.raise_inv rfl ha

theorem State.Ready.read8_keepsInv (h : s.Ready) (src : Src8) : (read8 src s).KeepsInv := by
  cases src with
  | reg r => exact h
  | imm n => exact h
  | mem m => exact h.memRead_keepsInv _

theorem State.Ready.write8_keepsInv (h : s.Ready) (dst : Dst8) (v : Byte) : (write8 dst v s).KeepsInv := by
  cases dst with
  | reg r => exact h.congr (State.setReg8_fault ..) (State.setReg8_ram ..)
  | mem m => exact h.memWrite_keepsInv _ v

theorem State.Ready.push16_keepsInv (h : s.Ready) (v : Word) : (push16 v s).KeepsInv :=
  ((h.setSp _).memWrite_keepsInv _ _).andThen fun _ _ ht => (ht.setSp _).memWrite_keepsInv _ _

theorem State.Ready.pop16_keepsInv (h : s.Ready) : (pop16 s).KeepsInv :=
  (h.memRead_keepsInv _).andThen fun _ _ ht => ((ht.setSp _).memRead_keepsInv _).andThen fun _ _ hu => hu.setSp _

theorem State.Ready.ldiBody_keepsInv (h : s.Ready) : (ldiBody s).KeepsInv :=
  (h.memRead_keepsInv _).andThen fun _ _ ht => (ht.memWrite_keepsInv _ _).andThen fun _ _ hu =>
    ((hu.pairWrite .de _).pairWrite .hl _).pairWrite .bc _

/-- An operation run in a ready state keeps the invariant, whether or not it raises. -/
theorem Action.run_keepsInv (x : Action) (h : s.Ready) : (x.run s).KeepsInv := by
  cases x with
  | load8 dst src => exact (h.read8_keepsInv src).andThen fun v _ ht => ht.write8_keepsInv dst v
  | load16 dst src => exact h.pairWrite dst _
  | push p => exact h.push16_keepsInv _
  | pop p => exact h.pop16_keepsInv.andThen fun v _ ht => ht.pairWrite p v
  | ldi => exact h.ldiBody_keepsInv
  | ldir => exact h.ldiBody_keepsInv.andThen fun _ _ ht => ht.ite (ht.setPc _) _
  | logic8 op src => exact (h.read8_keepsInv src).andThen fun _ _ ht => ht.congr rfl rfl
  | compare8 src => exact (h.read8_keepsInv src).andThen fun _ _ ht => ht.congr rfl rfl
  | add16 src => exact h.congr rfl rfl
  | inc16 p => exact h.pairWrite p _
  | dec16 p => exact h.pairWrite p _
  | jump cc m => exact (h.setPc _).ite h _
  | jr cc e => exact (h.setPc _).ite h _
  | call cc m =>
    dsimp only [Action.run, callTo]
    split
    · exact (h.push16_keepsInv _).andThen fun _ _ ht => ht.setPc _
    · exact h
  | ret => exact h.pop16_keepsInv.andThen fun v _ ht => ht.setPc v
  | di => exact h.congr rfl rfl
  | im m => exact h.congr rfl rfl
  | out pm src => exact (h.read8_keepsInv src).andThen fun _ _ ht => ht.congr rfl rfl

theorem State.Ready.exec_inv (h : s.Ready) {i : Instr} (he : exec i s = .next t) : t.Inv := by
  rw [exec_eq_next] at he
  cases he
  exact ((action i).run_keepsInv h).state_inv

theorem State.Ready.past (h : s.Ready) (n : Nat) : (s.past n).Ready := h.setPc _

/-- A fetch leaves a ready state, or a record of the opcode that is absent or the byte that cannot be read. -/
theorem State.Ready.fetch_keepsInv (h : s.Ready) : (fetch s).KeepsInv := by
  rcases fetch_cases s with ⟨i, n, he⟩ | ⟨op, hop, ht, he⟩ | ⟨op, ht, he⟩ | ⟨n, hb, he⟩ <;> rw [he]
  · exact h.past n
  · exact (h.past 1).raise_inv rfl ⟨hop, Option.isNone_iff_eq_none.mpr ht⟩
  · exact (h.past 2).raise_inv rfl (Option.isNone_iff_eq_none.mpr ht)
  · exact (h.past n).raise_inv rfl hb

/-- Settles O11: a step that answers a next state starts with no fault latched, so its fetch and its meaning
run in a ready state, and the record one of them latches is genuine. -/
theorem everyStepKeepsTheInvariant : Obligations.EveryStepKeepsTheInvariant := by
  rintro s t ⟨hwf, -⟩ hstep
  obtain ⟨hrun, hcase⟩ := step_next_cases hstep
  have hfetch := State.Ready.fetch_keepsInv ⟨hrun, hwf⟩
  rcases hcase with ⟨i, u, hf, he⟩ | hf <;> rw [hf] at hfetch
  · exact State.Ready.exec_inv hfetch he
  · exact hfetch

end Sys2Proof.Machine
end

section
/-! What no operation writes: the shadow bank, IX, IY, I, R, the cartridge, and the interrupt state outside DI
and IM (10_state.md R22 to R28, 20_memory.md R43). -/

namespace Sys2Proof.Machine

variable {R : State → State → Prop} {s t u : State} {x : Action}

/-! ## From an operation to a step -/

theorem exec_preserved {i : Instr} (hR : Preserved R (action i)) (he : exec i s = .next t) : R s t := by
  rw [exec_eq_next] at he
  cases he
  exact Action.run_preserved hR s

/-- A fetch only moves PC on and latches a record. -/
theorem fetch_preserved (hR : Preserved R x) (s : State) : R s (fetch s).state := by
  have hpast : ∀ n, R s (s.past n) := fun n => hR.setPc s _
  have hraise : ∀ n k, R s ((s.past n).raise k) := fun n k => hR.trans _ _ _ (hpast n) (hR.raise _ k)
  rcases fetch_cases s with ⟨i, n, he⟩ | ⟨op, -, -, he⟩ | ⟨op, -, he⟩ | ⟨n, -, he⟩ <;> rw [he]
  · exact hpast n
  · exact hraise 1 _
  · exact hraise 2 _
  · exact hraise n _

/-- What every operation preserves, a step preserves. -/
theorem step_preserved (hR : ∀ x, Preserved R x) (hstep : step s = .next t) : R s t := by
  have hfetch := fetch_preserved (hR .ret) s
  obtain ⟨-, ⟨i, u, hf, he⟩ | hf⟩ := step_next_cases hstep <;> rw [hf] at hfetch
  · exact (hR .ret).trans _ _ _ hfetch (exec_preserved (hR _) he)
  · exact hfetch

/-! ## The elements that only DI and IM write, or nothing -/

/-- The cartridge, the interrupt state and the inert elements are those of the state before. -/
structure SameUnwritten (s t : State) : Prop where
  inert : t.withInert s = t
  cart : t.cart = s.cart
  iff1 : t.iff1 = s.iff1
  iff2 : t.iff2 = s.iff2
  im : t.im = s.im

/-- Every elementary update but those of DI and IM leaves these elements alone: a relation that they decide
needs a word only about DI and IM. -/
theorem preserved_of_sameUnwritten (refl : ∀ s, R s s) (trans : ∀ s t u, R s t → R t u → R s u)
    (same : ∀ s t, SameUnwritten s t → R s t)
    (disable : x = .di → ∀ s, R s { s with iff1 := false, iff2 := false })
    (mode : ∀ m, x = .im m → ∀ s, R s { s with im := m }) : Preserved R x where
  refl := refl
  trans := trans
  setPc _ _ := same _ _ ⟨rfl, rfl, rfl, rfl, rfl⟩
  raise s k := same _ _ ⟨by unfold State.raise; split <;> rfl, by simp, by simp, by simp, by simp⟩
  setSp _ _ _ := same _ _ ⟨rfl, rfl, rfl, rfl, rfl⟩
  setReg8 r _ _ _ _ := same _ _ ⟨by cases r <;> rfl, by simp, by simp, by simp, by simp⟩
  pairWrite p _ _ _ := same _ _ ⟨by cases p <;> rfl, by simp, by simp, by simp, by simp⟩
  logic _ _ _ _ _ := same _ _ ⟨rfl, rfl, rfl, rfl, rfl⟩
  compare _ _ _ _ := same _ _ ⟨rfl, rfl, rfl, rfl, rfl⟩
  sum _ _ _ _ _ := same _ _ ⟨rfl, rfl, rfl, rfl, rfl⟩
  store _ _ _ _ _ := same _ _ ⟨rfl, rfl, rfl, rfl, rfl⟩
  port _ _ _ _ _ := same _ _ ⟨rfl, rfl, rfl, rfl, rfl⟩
  disable := disable
  mode := mode

theorem withInert_eq_trans (hst : t.withInert s = t) (htu : u.withInert t = u) : u.withInert s = u :=
  calc u.withInert s
    _ = u.withInert (t.withInert s) := rfl
    _ = u.withInert t := by rw [hst]
    _ = u := htu

/-- Settles O13: no elementary update, DI's and IM's among them, writes an inert element or the cartridge. -/
theorem noStepChangesInertState : Obligations.NoStepChangesInertState := by
  intro s t hstep
  refine step_preserved (R := fun s t => t.withInert s = t ∧ t.cart = s.cart) (fun x => ?_) hstep
  refine preserved_of_sameUnwritten (fun _ => ⟨rfl, rfl⟩) ?_ (fun _ _ h => ⟨h.inert, h.cart⟩)
    (fun _ _ => ⟨rfl, rfl⟩) (fun _ _ _ => ⟨rfl, rfl⟩)
  rintro s t u ⟨hi, hc⟩ ⟨hi', hc'⟩
  exact ⟨withInert_eq_trans hi hi', hc'.trans hc⟩

/-! ## The interrupt state -/

theorem eq_di_of_action {i : Instr} (h : action i = .di) : i = .di := by
  cases i <;> first | rfl | cases h

theorem eq_im_of_action {i : Instr} {m : IntMode} (h : action i = .im m) : i = .im m := by
  cases i <;> cases h <;> rfl

/-- What an operation may do to the interrupt state: DI may clear the flip-flops, IM may set the mode. -/
structure InterruptFrame (x : Action) (s t : State) : Prop where
  flipFlops : x ≠ .di → t.iff1 = s.iff1 ∧ t.iff2 = s.iff2
  mode : (∀ m, x ≠ .im m) → t.im = s.im
  iff1_not_set : t.iff1 = true → s.iff1 = true
  iff2_not_set : t.iff2 = true → s.iff2 = true

theorem SameUnwritten.interruptFrame (h : SameUnwritten s t) : InterruptFrame x s t where
  flipFlops _ := ⟨h.iff1, h.iff2⟩
  mode _ := h.im
  iff1_not_set := h.iff1 ▸ id
  iff2_not_set := h.iff2 ▸ id

theorem InterruptFrame.trans (h : InterruptFrame x s t) (h' : InterruptFrame x t u) : InterruptFrame x s u where
  flipFlops hx := ⟨(h'.flipFlops hx).1.trans (h.flipFlops hx).1, (h'.flipFlops hx).2.trans (h.flipFlops hx).2⟩
  mode hx := (h'.mode hx).trans (h.mode hx)
  iff1_not_set := h.iff1_not_set ∘ h'.iff1_not_set
  iff2_not_set := h.iff2_not_set ∘ h'.iff2_not_set

theorem interruptFrame_preserved (x : Action) : Preserved (InterruptFrame x) x :=
  preserved_of_sameUnwritten (fun _ => ⟨fun _ => ⟨rfl, rfl⟩, fun _ => rfl, id, id⟩)
    (fun _ _ _ => InterruptFrame.trans) (fun _ _ => SameUnwritten.interruptFrame)
    (fun hx _ => ⟨fun hne => absurd hx hne, fun _ => rfl, nofun, nofun⟩)
    (fun m hx _ => ⟨fun _ => ⟨rfl, rfl⟩, fun hne => absurd hx (hne m), id, id⟩)

/-- Settles O16: DI is the one operation that writes a flip-flop, and clears it; IM the one that writes IM. -/
theorem onlyDiAndImChangeInterruptState : Obligations.OnlyDiAndImChangeInterruptState := by
  intro i s t he
  obtain ⟨hff, hmode, h1, h2⟩ := exec_preserved (interruptFrame_preserved (action i)) he
  exact ⟨fun hi => hff (mt eq_di_of_action hi), fun hi => hmode fun m => mt eq_im_of_action (hi m), h1, h2⟩

end Sys2Proof.Machine
end

section
/-! Which operations write F, and the two bits of it that no flag has (10_state.md R19, R20). -/

namespace Sys2Proof.Machine

variable {i : Instr} {s t u : State}

/-! ## The instructions behind the operations that write F -/

/-- The operand of XOR, OR or CP that the resolver's operand came from: `aluSrc8` read backward. -/
def aluSrcOf : Src8 → AluSrc
  | .reg r => .reg r
  | .imm n => .imm n
  | .mem _ => .atHl

theorem aluSrcOf_aluSrc8 (src : AluSrc) : aluSrcOf (aluSrc8 src) = src := by cases src <;> rfl

theorem eq_logic_of_action {op : LogicOp} {src : Src8} (h : action i = .logic8 op src) :
    i = .logic op (aluSrcOf src) := by
  cases i <;> cases h <;> rfl

theorem eq_cpS_of_action {src : Src8} (h : action i = .compare8 src) : i = .cpS (aluSrcOf src) := by
  cases i <;> cases h <;> rfl

theorem eq_addHl_of_action {src : Reg16} (h : action i = .add16 src) : ∃ p, i = .addHl p := by
  cases i <;> cases h
  exacts [⟨.bc, rfl⟩, ⟨.de, rfl⟩, ⟨.hl, rfl⟩, ⟨.sp, rfl⟩]

/-- POP AF is the one instruction that writes the pair AF. -/
theorem eq_popAf_of_mem_pairs (h : .af ∈ (action i).pairs) : i = .popAf := by
  cases i <;> first | rfl | exact absurd h (by simp [action, Action.pairs])

/-! ## The frame of F -/

/-- F changes only in an instruction that writes flags, and its two unnamed bits only in POP AF. -/
structure FlagFrame (i : Instr) (s t : State) : Prop where
  flags : ¬ writesFlags i → t.f = s.f
  unnamed : i ≠ .popAf → t.f.getLsbD 5 = s.f.getLsbD 5 ∧ t.f.getLsbD 3 = s.f.getLsbD 3

theorem FlagFrame.of_f_eq (h : t.f = s.f) : FlagFrame i s t := ⟨fun _ => h, fun _ => by rw [h]; exact ⟨rfl, rfl⟩⟩

theorem FlagFrame.of_writesFlags (hw : writesFlags i)
    (h : t.f.getLsbD 5 = s.f.getLsbD 5 ∧ t.f.getLsbD 3 = s.f.getLsbD 3) : FlagFrame i s t :=
  ⟨fun hn => absurd hw hn, fun _ => h⟩

theorem FlagFrame.of_popAf (h : i = .popAf) : FlagFrame i s t :=
  ⟨fun hn => absurd (.inr (.inr (.inr h))) hn, fun hn => absurd h hn⟩

theorem FlagFrame.trans (h : FlagFrame i s t) (h' : FlagFrame i t u) : FlagFrame i s u where
  flags hw := (h'.flags hw).trans (h.flags hw)
  unnamed hp := ⟨(h'.unnamed hp).1.trans (h.unnamed hp).1, (h'.unnamed hp).2.trans (h.unnamed hp).2⟩

theorem flagFrame_preserved (i : Instr) : Preserved (FlagFrame i) (action i) where
  refl _ := .of_f_eq rfl
  trans _ _ _ := FlagFrame.trans
  setPc _ _ := .of_f_eq rfl
  raise s k := .of_f_eq (s.raise_f k)
  setSp _ _ _ := .of_f_eq rfl
  setReg8 r _ _ s v := .of_f_eq (s.setReg8_f v r)
  pairWrite p hp s v := by
    by_cases hf : p = .af
    · exact .of_popAf (eq_popAf_of_mem_pairs (hf ▸ hp))
    · exact .of_f_eq (s.pairWrite_f_of_ne v p hf)
  logic op src h _ _ := .of_writesFlags (.inl ⟨op, _, eq_logic_of_action h⟩) (logicFlags_unnamed _ _)
  compare src h _ _ := .of_writesFlags (.inr (.inl ⟨_, eq_cpS_of_action h⟩)) (subcFlags_unnamed _ _ _ _)
  sum src h _ _ _ := .of_writesFlags (.inr (.inr (.inl (eq_addHl_of_action h)))) (add16Flags_unnamed _ _ _)
  store _ _ _ _ _ := .of_f_eq rfl
  port _ _ _ _ _ := .of_f_eq rfl
  disable _ _ := .of_f_eq rfl
  mode _ _ _ := .of_f_eq rfl

/-- Settles O17: of the updates an instruction is made of, only the flag computations and the write of AF reach
F, and the flag computations keep its unnamed bits. -/
theorem onlyTheFlagInstructionsChangeF : Obligations.OnlyTheFlagInstructionsChangeF := by
  intro i s t he
  obtain ⟨hflags, hunnamed⟩ := exec_preserved (flagFrame_preserved i) he
  exact ⟨hflags, hunnamed⟩

end Sys2Proof.Machine
end

section
/-! Two runs of the machine that differ only in state that no operation consults (10_state.md R25, R27, R28). -/

namespace Sys2Proof.Machine

/-- Related states read alike, and the elementary updates keep them related: what sets them apart is consulted
by nothing. -/
structure Unobserved (R : State → State → Prop) : Prop where
  reg8 {s t} : R s t → ∀ r, s.reg8 r = t.reg8 r
  f {s t} : R s t → s.f = t.f
  sp {s t} : R s t → s.sp = t.sp
  pc {s t} : R s t → s.pc = t.pc
  fault {s t} : R s t → s.fault = t.fault
  cart {s t} : R s t → s.cart = t.cart
  ram {s t} : R s t → s.ram = t.ram
  setReg8 {s t} : R s t → ∀ r v, R (s.setReg8 r v) (t.setReg8 r v)
  setF {s t} : R s t → ∀ v, R { s with f := v } { t with f := v }
  setSp {s t} : R s t → ∀ v, R (s.setSp v) (t.setSp v)
  setPc {s t} : R s t → ∀ v, R (s.setPc v) (t.setPc v)
  latch {s t} : R s t → ∀ record, R { s with fault := record } { t with fault := record }
  setRam {s t} : R s t → ∀ m, R { s with ram := m } { t with ram := m }
  port {s t} : R s t → ∀ w, R { s with ports := s.ports ++ [w] } { t with ports := t.ports ++ [w] }
  disable {s t} : R s t → R { s with iff1 := false, iff2 := false } { t with iff1 := false, iff2 := false }
  mode {s t} : R s t → ∀ m, R { s with im := m } { t with im := m }

variable {R : State → State → Prop} {s t : State} {α β : Type}

/-- The same way of ending, with the same value and related states. -/
inductive Res.Related (R : State → State → Prop) : Res α → Res α → Prop
  | ok {v : α} {s t : State} : R s t → Related R (.ok v s) (.ok v t)
  | raised {s t : State} : R s t → Related R (.raised s) (.raised t)

/-- The same answer of a step, with related next states. -/
inductive OutcomeRelated (R : State → State → Prop) : Outcome → Outcome → Prop
  | next {s t : State} : R s t → OutcomeRelated R (.next s) (.next t)
  | fault (record : Fault) : OutcomeRelated R (.fault record) (.fault record)

theorem Res.Related.andThen {x y : Res α} {k l : α → State → Res β} (hxy : x.Related R y)
    (hkl : ∀ v s t, R s t → (k v s).Related R (l v t)) : (x.andThen k).Related R (y.andThen l) := by
  cases hxy with
  | ok h => exact hkl _ _ _ h
  | raised h => exact .raised h

theorem Res.Related.outcome {x y : Res α} (hxy : x.Related R y) : OutcomeRelated R x.outcome y.outcome := by
  cases hxy with
  | ok h => exact .next h
  | raised h => exact .next h

theorem OutcomeRelated.eq_mapNext {g : State → State} {x y : Outcome}
    (hxy : OutcomeRelated (fun s t => t = g s) x y) : y = mapNext g x := by
  cases hxy with
  | next h => exact congrArg Host.Outcome.next h
  | fault record => rfl

theorem OutcomeRelated.mapNext_eq {g : State → State} {x y : Outcome}
    (hxy : OutcomeRelated (fun s t => g s = g t) x y) : mapNext g x = mapNext g y := by
  cases hxy with
  | next h => exact congrArg Host.Outcome.next h
  | fault record => rfl

namespace Unobserved

variable (hR : Unobserved R) (h : R s t)
include hR h

/-! ## Reads and updates built from the elementary ones -/

theorem pairRead_eq (p : Reg16) : s.pairRead p = t.pairRead p := by
  cases p with
  | af => exact congrArg₂ joinBytes (hR.reg8 h .a) (hR.f h)
  | bc => exact congrArg₂ joinBytes (hR.reg8 h .b) (hR.reg8 h .c)
  | de => exact congrArg₂ joinBytes (hR.reg8 h .d) (hR.reg8 h .e)
  | hl => exact congrArg₂ joinBytes (hR.reg8 h .h) (hR.reg8 h .l)
  | sp => exact hR.sp h

theorem readByte_eq (a : Word) : s.readByte a = t.readByte a :=
  State.readByte_congr (hR.cart h) (hR.ram h) a

theorem resolveAddr_eq (m : Addr) : resolveAddr m s = resolveAddr m t := by
  cases m with
  | direct nn => rfl
  | zeroPage n => rfl
  | ind p => exact hR.pairRead_eq h p

theorem resolvePort_eq (pm : Port) : resolvePort pm s = resolvePort pm t := by
  cases pm with
  | imm n => rfl
  | indC => exact hR.reg8 h .c

theorem read16_eq (src : Src16) : read16 src s = read16 src t := by
  cases src with
  | pair p => exact hR.pairRead_eq h p
  | imm nn => rfl

theorem cond_eq (cc : Cond) : cond cc s = cond cc t := by
  unfold cond
  rw [hR.f h]

theorem pairWrite (p : Reg16) {v w : Word} (hv : v = w) :
    R (s.pairWrite p v) (t.pairWrite p w) := by
  subst hv
  cases p with
  | af => exact hR.setF (hR.setReg8 h .a (hiByte v)) (loByte v)
  | bc => exact hR.setReg8 (hR.setReg8 h .b (hiByte v)) .c (loByte v)
  | de => exact hR.setReg8 (hR.setReg8 h .d (hiByte v)) .e (loByte v)
  | hl => exact hR.setReg8 (hR.setReg8 h .h (hiByte v)) .l (loByte v)
  | sp => exact hR.setSp h _

theorem raise (k : Word → Fault) : R (s.raise k) (t.raise k) := by
  cases hf : s.fault with
  | none =>
    have hk : k s.pc = k t.pc := congrArg k (hR.pc h)
    rw [s.raise_of_running k hf, t.raise_of_running k (hR.fault h ▸ hf), hk]
    exact hR.latch h _
  | some record =>
    rw [s.raise_of_faulted k record hf, t.raise_of_faulted k record (hR.fault h ▸ hf)]
    exact h

theorem setLogic (op : LogicOp) (v : Byte) :
    R (setLogic op v s) (setLogic op v t) := by
  have ha : s.a = t.a := hR.reg8 h .a
  unfold Machine.setLogic
  rw [ha, hR.f h]
  exact hR.setF (hR.setReg8 h .a _) _

theorem setCompare (v : Byte) (cin : Bool) :
    R (setCompare v cin s) (setCompare v cin t) := by
  have ha : s.a = t.a := hR.reg8 h .a
  have hflags : subcFlags s.a v cin s.f = subcFlags t.a v cin t.f := by rw [ha, hR.f h]
  unfold Machine.setCompare
  rw [hflags]
  exact hR.setF h _

theorem setPcIf {b c : Bool} (hb : b = c) {v w : Word} (hv : v = w) :
    R (if b then s.setPc v else s) (if c then t.setPc w else t) := by
  subst hb hv
  cases b with
  | true => exact hR.setPc h v
  | false => exact h

/-! ## Bus, stack and operands -/

theorem memRead_related {a b : Word} (ha : a = b) :
    (memRead a s).Related R (memRead b t) := by
  subst ha
  unfold memRead
  rw [hR.readByte_eq h a]
  split
  · exact .ok h
  · exact .raised (hR.raise h _)

theorem memWrite_related {a b : Word} (ha : a = b) {v w : Byte} (hv : v = w) :
    (memWrite a v s).Related R (memWrite b w t) := by
  subst ha hv
  rcases hr : inRam a with _ | _
  · rw [memWrite_outside hr, memWrite_outside hr]
    exact .raised (hR.raise h _)
  · rw [memWrite_inRam hr, memWrite_inRam hr, hR.ram h]
    exact .ok (hR.setRam h _)

theorem read8_related (src : Src8) : (read8 src s).Related R (read8 src t) := by
  cases src with
  | reg r =>
    dsimp only [read8]
    rw [hR.reg8 h r]
    exact .ok h
  | imm n => exact .ok h
  | mem m => exact hR.memRead_related h (hR.resolveAddr_eq h m)

theorem write8_related (dst : Dst8) (v : Byte) :
    (write8 dst v s).Related R (write8 dst v t) := by
  cases dst with
  | reg r => exact .ok (hR.setReg8 h r v)
  | mem m => exact hR.memWrite_related h (hR.resolveAddr_eq h m) rfl

/-- Moving SP by the same distance in both states. -/
theorem moveSp (move : Word → Word) :
    R (s.setSp (move s.sp)) (t.setSp (move t.sp)) :=
  hR.sp h ▸ hR.setSp h _

theorem push16_related {v w : Word} (hv : v = w) :
    (push16 v s).Related R (push16 w t) := by
  subst hv
  have hdec : ∀ {s t}, R s t → R (s.setSp (s.sp - 1)) (t.setSp (t.sp - 1)) := fun h => hR.moveSp h (· - 1)
  exact (hR.memWrite_related (hdec h) (hR.sp (hdec h)) rfl).andThen fun _ _ _ h =>
    hR.memWrite_related (hdec h) (hR.sp (hdec h)) rfl

theorem pop16_related : (pop16 s).Related R (pop16 t) := by
  have hinc : ∀ {s t}, R s t → R (s.setSp (s.sp + 1)) (t.setSp (t.sp + 1)) := fun h => hR.moveSp h (· + 1)
  exact (hR.memRead_related h (hR.sp h)).andThen fun _ _ _ h =>
    (hR.memRead_related (hinc h) (hR.sp (hinc h))).andThen fun _ _ _ h => .ok (hinc h)

theorem ldiBody_related : (ldiBody s).Related R (ldiBody t) := by
  have hmove : ∀ {s t}, R s t → ∀ p (move : Word → Word),
      R (s.pairWrite p (move (s.pairRead p))) (t.pairWrite p (move (t.pairRead p))) :=
    fun h p move => hR.pairWrite h p (congrArg move (hR.pairRead_eq h p))
  exact (hR.memRead_related h (hR.pairRead_eq h .hl)).andThen fun _ _ _ h =>
    (hR.memWrite_related h (hR.pairRead_eq h .de) rfl).andThen fun _ _ _ h =>
    .ok (hmove (hmove (hmove h .de (· + 1)) .hl (· + 1)) .bc (· - 1))

/-! ## Operations, fetch and step -/

/-- An operation run in related states ends the same way, in related states. -/
theorem run_related (x : Action) : (x.run s).Related R (x.run t) := by
  cases x with
  | load8 dst src => exact (hR.read8_related h src).andThen fun v _ _ h => hR.write8_related h dst v
  | load16 dst src => exact .ok (hR.pairWrite h dst (hR.read16_eq h src))
  | push p => exact hR.push16_related h (hR.pairRead_eq h p)
  | pop p => exact (hR.pop16_related h).andThen fun _ _ _ h => .ok (hR.pairWrite h p rfl)
  | ldi => exact hR.ldiBody_related h
  | ldir =>
    refine (hR.ldiBody_related h).andThen fun _ s t h => .ok ?_
    rw [hR.pairRead_eq h .bc, hR.pc h]
    split
    · exact h
    · exact hR.setPc h _
  | logic8 op src => exact (hR.read8_related h src).andThen fun v _ _ h => .ok (hR.setLogic h op v)
  | compare8 src => exact (hR.read8_related h src).andThen fun v _ _ h => .ok (hR.setCompare h v false)
  | add16 src =>
    dsimp only [Action.run, add16]
    rw [hR.pairRead_eq h .hl, hR.pairRead_eq h src, hR.f h]
    exact .ok (hR.pairWrite (hR.setF h _) .hl rfl)
  | inc16 p => exact .ok (hR.pairWrite h p (congrArg (· + 1) (hR.pairRead_eq h p)))
  | dec16 p => exact .ok (hR.pairWrite h p (congrArg (· - 1) (hR.pairRead_eq h p)))
  | jump cc m => exact .ok (hR.setPcIf h (hR.cond_eq h cc) (hR.resolveAddr_eq h m))
  | jr cc e => exact .ok (hR.setPcIf h (hR.cond_eq h cc) (congrArg (· + sext16 e) (hR.pc h)))
  | call cc m =>
    dsimp only [Action.run, callTo]
    rw [hR.cond_eq h cc, hR.resolveAddr_eq h m]
    split
    · exact (hR.push16_related h (hR.pc h)).andThen fun _ _ _ h => .ok (hR.setPc h _)
    · exact .ok h
  | ret => exact (hR.pop16_related h).andThen fun _ _ _ h => .ok (hR.setPc h _)
  | di => exact .ok (hR.disable h)
  | im m => exact .ok (hR.mode h m)
  | out pm src =>
    refine (hR.read8_related h src).andThen fun v s t h => ?_
    rw [hR.resolvePort_eq h pm]
    exact .ok (hR.port h _)

theorem next8_related : (next8 s).Related R (next8 t) :=
  (hR.memRead_related h (hR.pc h)).andThen fun _ _ _ h => .ok (hR.pc h ▸ hR.setPc h _)

theorem next16_related : (next16 s).Related R (next16 t) :=
  (hR.next8_related h).andThen fun _ _ _ h => (hR.next8_related h).andThen fun _ _ _ h => .ok h

theorem fetchEntry_related (tb : Table) (op : Byte) (entry : Option Entry) :
    (fetchEntry tb op entry s).Related R (fetchEntry tb op entry t) := by
  match entry with
  | none => exact .raised (hR.raise h _)
  | some (.plain _) => exact .ok h
  | some (.imm8 _) => exact (hR.next8_related h).andThen fun _ _ _ h => .ok h
  | some (.imm16 _) => exact (hR.next16_related h).andThen fun _ _ _ h => .ok h

theorem fetch_related : (fetch s).Related R (fetch t) := by
  refine (hR.next8_related h).andThen fun op s t h => ?_
  split
  · exact (hR.next8_related h).andThen fun op2 _ _ h => hR.fetchEntry_related h .extended op2 _
  · exact hR.fetchEntry_related h .primary op _

/-- A step of related states gives the same answer, with related next states. -/
theorem step_related : OutcomeRelated R (step s) (step t) := by
  cases hf : s.fault with
  | some record =>
    rw [step_of_faulted record hf, step_of_faulted record (hR.fault h ▸ hf)]
    exact .fault record
  | none =>
    have hf' : t.fault = none := hR.fault h ▸ hf
    have hfetch := hR.fetch_related h
    generalize hs : fetch s = x at hfetch
    generalize ht : fetch t = y at hfetch
    cases hfetch with
    | ok huw =>
      rw [step_of_fetch_ok hf hs, step_of_fetch_ok hf' ht, exec_eq_action, exec_eq_action]
      exact (hR.run_related huw _).outcome
    | raised huw =>
      rw [step_of_fetch_raised hf hs, step_of_fetch_raised hf' ht]
      exact .next huw

end Unobserved

/-! ## The two pairs of runs -/

theorem unobserved_withInert (x : State) : Unobserved fun s t => t = s.withInert x where
  reg8 := by rintro s _ rfl r; cases r <;> rfl
  f := by rintro s _ rfl; rfl
  sp := by rintro s _ rfl; rfl
  pc := by rintro s _ rfl; rfl
  fault := by rintro s _ rfl; rfl
  cart := by rintro s _ rfl; rfl
  ram := by rintro s _ rfl; rfl
  setReg8 := by rintro s _ rfl r v; cases r <;> rfl
  setF := by rintro s _ rfl v; rfl
  setSp := by rintro s _ rfl v; rfl
  setPc := by rintro s _ rfl v; rfl
  latch := by rintro s _ rfl record; rfl
  setRam := by rintro s _ rfl m; rfl
  port := by rintro s _ rfl w; rfl
  disable := by rintro s _ rfl; rfl
  mode := by rintro s _ rfl m; rfl

/-- Settles O14: the runs from `s` and from `s` with other inert elements stay related. -/
theorem inertStateInfluencesNoStep : Obligations.InertStateInfluencesNoStep :=
  fun _ x => ((unobserved_withInert x).step_related rfl).eq_mapNext

theorem reg8_forgetControl (s : State) (r : Reg8) : s.forgetControl.reg8 r = s.reg8 r := by cases r <;> rfl

theorem forgetControl_setReg8 (s : State) (r : Reg8) (v : Byte) :
    (s.setReg8 r v).forgetControl = s.forgetControl.setReg8 r v := by cases r <;> rfl

theorem unobserved_forgetControl : Unobserved fun s t => s.forgetControl = t.forgetControl where
  reg8 {s t} h r := by rw [← reg8_forgetControl s, h, reg8_forgetControl t]
  f h := (congrArg State.f h :)
  sp h := (congrArg State.sp h :)
  pc h := (congrArg State.pc h :)
  fault h := (congrArg State.fault h :)
  cart h := (congrArg State.cart h :)
  ram h := (congrArg State.ram h :)
  setReg8 h r v := by rw [forgetControl_setReg8, forgetControl_setReg8, h]
  setF h v := congrArg (fun s : State => { s with f := v }) h
  setSp h v := congrArg (State.setSp · v) h
  setPc h v := congrArg (State.setPc · v) h
  latch h record := congrArg (fun s : State => { s with fault := record }) h
  setRam h m := congrArg (fun s : State => { s with ram := m }) h
  port h w := congrArg (fun s : State => { s with ports := s.ports ++ [w] }) h
  disable h := h
  mode h _ := h

/-- Settles O15: the runs from two states that differ in these elements alone go on to differ in them alone. -/
theorem interruptStateInfluencesNoStep : Obligations.InterruptStateInfluencesNoStep := by
  intro s iff1 iff2 im i r
  refine OutcomeRelated.mapNext_eq (unobserved_forgetControl.step_related ?_)
  rfl

end Sys2Proof.Machine
end

section
/-! The accessors of register pairs and of flags (10_state.md R12 to R14, R18, R19). -/

namespace Sys2Proof.Machine

theorem hiByte_eq_ofNat (w : Word) : hiByte w = BitVec.ofNat 8 (w.toNat / 256) := by
  apply BitVec.eq_of_toNat_eq
  rw [hiByte_toNat, BitVec.toNat_ofNat, Nat.mod_eq_of_lt (by have := w.isLt; omega)]

theorem loByte_eq_ofNat (w : Word) : loByte w = BitVec.ofNat 8 w.toNat := by
  apply BitVec.eq_of_toNat_eq
  rw [loByte_toNat, BitVec.toNat_ofNat]

/-- Writing a pair with what was read from it changes nothing. -/
theorem State.pairWrite_pairRead_self (s : State) (p : Reg16) : s.pairWrite p (s.pairRead p) = s := by
  cases p <;> simp [State.pairWrite, State.pairRead]

/-- Settles O21: a pair joins its halves, a write splits the value into them, and joining what was split or
splitting what was joined gives it back. -/
theorem pairsAreViewsOfTheirHalves : Obligations.PairsAreViewsOfTheirHalves := by
  intro s v
  refine ⟨joinBytes_toNat .., joinBytes_toNat .., joinBytes_toNat .., joinBytes_toNat .., ?_, ?_, ?_, ?_, rfl,
    fun p => ⟨State.pairRead_pairWrite_self .., s.pairWrite_pairRead_self p, State.pairWrite_pairRead_self ..⟩⟩
  all_goals rw [← hiByte_eq_ofNat, ← loByte_eq_ofNat]; rfl

/-- Settles O22: `flag_set` writes the bit of its flag alone, and the six positions are those of `Flag.bit`. -/
theorem flagAccessorsTouchOneBit : Obligations.FlagAccessorsTouchOneBit := by
  intro x v f
  refine ⟨flagTest_flagSet_self x v f, fun n hn hne => ?_, rfl, rfl, rfl, rfl, rfl, rfl⟩
  rw [getLsbD_flagSet x v f n hn, if_neg hne]

end Sys2Proof.Machine
end

section
/-! The bytes of memory an operation may change: those it stores to (20_memory.md R49, R50). -/

namespace Sys2Proof.Machine

variable {α β : Type} {s t : State} {a b : Word} {x : Action}

/-- `storedAddrs` of the operation an instruction applies. -/
def Action.storedAddrs (x : Action) (s : State) : List Word :=
  match x with
  | .load8 (.mem m) _ => [resolveAddr m s]
  | .push _ => [s.sp - 1, s.sp - 2]
  | .call cc _ => if cond cc s then [s.sp - 1, s.sp - 2] else []
  | .ldi | .ldir => [s.pairRead .de]
  | _ => []

theorem storedAddrs_eq_action (i : Instr) (s : State) : storedAddrs i s = (action i).storedAddrs s := by
  cases i <;> rfl

/-! ## Statements in sequence -/

/-- An operand read goes on in the state it found, or it latches a record: what holds after both holds after
the read and the statements behind it. -/
theorem read8_andThen_state {P : State → Prop} {k : Byte → State → Res β} (src : Src8)
    (hraise : ∀ record, P (s.raise record)) (hok : ∀ v, P (k v s).state) :
    P ((read8 src s).andThen k).state := by
  cases src with
  | reg r => exact hok _
  | imm n => exact hok _
  | mem m =>
    rw [read8]
    rcases memRead_cases (resolveAddr m s) s with ⟨v, -, he⟩ | ⟨-, he⟩ <;> rw [he]
    · exact hok v
    · exact hraise _

/-- Statements that leave the byte at an address, behind one that may not. -/
theorem Res.readByte_andThen {y : Res α} {k : α → State → Res β}
    (hk : ∀ v t, (k v t).state.readByte b = t.readByte b) :
    (y.andThen k).state.readByte b = y.state.readByte b := by
  cases y with
  | ok v t => exact hk v t
  | raised t => rfl

/-! ## The operations that store -/

theorem memWrite_readByte_of_ne (v : Byte) (s : State) (h : b ≠ a) :
    (memWrite a v s).state.readByte b = s.readByte b := by
  rcases memWrite_cases a v s with ⟨hr, he⟩ | ⟨-, he⟩ <;> rw [he]
  · exact (readByte_store s v b hr).trans (if_neg h)
  · exact s.readByte_raise _ b

/-- A push changes no byte but the two below SP, also when the second store raises after the first. -/
theorem push16_readByte_of_not_mem (w : Word) (h : b ∉ [s.sp - 1, s.sp - 2]) :
    (push16 w s).state.readByte b = s.readByte b := by
  have h12 : s.sp - 2 = s.sp - 1 - 1 := by bv_omega
  rw [h12] at h
  have h1 : b ≠ s.sp - 1 := List.ne_of_not_mem_cons h
  have h2 : b ≠ s.sp - 1 - 1 := List.ne_of_not_mem_cons (List.not_mem_of_not_mem_cons h)
  have hfirst (hr : inRam (s.sp - 1) = true) :
      State.readByte { s with sp := s.sp - 1 - 1, ram := s.ram.set (s.sp - 1).toNat (hiByte w) } b = s.readByte b :=
    (readByte_store s _ b hr).trans (if_neg h1)
  rcases push16_cases w s with ⟨hr1, hr2, he⟩ | ⟨-, he⟩ | ⟨hr1, -, he⟩ <;> rw [he]
  · exact ((readByte_store _ _ b hr2).trans (if_neg h2)).trans (hfirst hr1)
  · exact State.readByte_raise _ _ b
  · exact (State.readByte_raise _ _ b).trans (hfirst hr1)

theorem ldiBody_readByte_of_ne (h : b ≠ s.pairRead .de) : (ldiBody s).state.readByte b = s.readByte b := by
  refine read8_andThen_state (P := fun t => t.readByte b = s.readByte b) (.mem (.ind .hl))
    (fun _ => s.readByte_raise _ b) fun v => ?_
  refine (Res.readByte_andThen fun _ t => ?_).trans (memWrite_readByte_of_ne v s h)
  simp [Res.state]

/-! ## All operations -/

/-- An operation that does not store leaves every byte of memory. -/
theorem readByte_preserved (hx : x.stores = false) (b : Word) :
    Preserved (fun s t => t.readByte b = s.readByte b) x where
  refl _ := rfl
  trans _ _ _ hst htu := htu.trans hst
  setPc _ _ := rfl
  raise s k := s.readByte_raise k b
  setSp _ _ _ := rfl
  setReg8 r _ _ s v := s.readByte_setReg8 v r b
  pairWrite p _ s v := s.readByte_pairWrite v p b
  logic _ _ _ _ _ := rfl
  compare _ _ _ _ := rfl
  sum _ _ _ _ _ := rfl
  store hs := nomatch hx.symm.trans hs
  port _ _ _ _ _ := rfl
  disable _ _ := rfl
  mode _ _ _ := rfl

theorem Action.run_readByte_of_not_mem (x : Action) (h : b ∉ x.storedAddrs s) :
    (x.run s).state.readByte b = s.readByte b := by
  cases x with
  | load8 dst src =>
    cases dst with
    | reg r => exact Action.run_preserved (readByte_preserved rfl b) s
    | mem m =>
      exact read8_andThen_state (P := fun t => t.readByte b = s.readByte b) src (fun _ => s.readByte_raise _ b)
        fun v => memWrite_readByte_of_ne v s (List.ne_of_not_mem_cons h)
  | push p => exact push16_readByte_of_not_mem _ h
  | call cc m =>
    cases hc : cond cc s with
    | false => simp [Action.run, callTo, hc, Res.state]
    | true =>
      have hpush := push16_readByte_of_not_mem s.pc (by simpa [Action.storedAddrs, hc] using h)
      simpa [Action.run, callTo, hc] using (Res.readByte_andThen fun _ _ => rfl).trans hpush
  | ldi => exact ldiBody_readByte_of_ne (List.ne_of_not_mem_cons h)
  | ldir =>
    refine (Res.readByte_andThen fun _ t => ?_).trans (ldiBody_readByte_of_ne (List.ne_of_not_mem_cons h))
    dsimp only [Res.state]
    split <;> rfl
  | _ => exact Action.run_preserved (readByte_preserved rfl b) s

/-- Settles O19: the addresses an instruction stores to are those of its operation, and each of the operations
that store writes at its own addresses alone, up to the access that raises. -/
theorem onlyStoredBytesChange : Obligations.OnlyStoredBytesChange := by
  intro i s t a he ha
  rw [exec_eq_next] at he
  cases he
  rw [storedAddrs_eq_action] at ha
  exact (action i).run_readByte_of_not_mem ha

end Sys2Proof.Machine
end

section
/-! The sequence of port writes across an operation and a step (20_memory.md R49, R58). -/

namespace Sys2Proof.Machine

variable {i : Instr} {s t : State} {x : Action}

theorem isOut_of_action {pm : Port} {src : Src8} (h : action i = .out pm src) : isOut i := by
  cases i <;> cases h
  exacts [.inl ⟨_, rfl⟩, .inr ⟨.b, rfl⟩, .inr ⟨.c, rfl⟩, .inr ⟨.d, rfl⟩, .inr ⟨.e, rfl⟩, .inr ⟨.h, rfl⟩,
    .inr ⟨.l, rfl⟩, .inr ⟨.a, rfl⟩]

theorem ports_preserved (hx : ∀ pm src, x ≠ .out pm src) : Preserved (fun s t => t.ports = s.ports) x where
  refl _ := rfl
  trans _ _ _ hst htu := htu.trans hst
  setPc _ _ := rfl
  raise s k := s.raise_ports k
  setSp _ _ _ := rfl
  setReg8 r _ _ s v := s.setReg8_ports v r
  pairWrite p _ s v := s.pairWrite_ports v p
  logic _ _ _ _ _ := rfl
  compare _ _ _ _ := rfl
  sum _ _ _ _ _ := rfl
  store _ _ _ _ _ := rfl
  port pm src h := absurd h (hx pm src)
  disable _ _ := rfl
  mode _ _ _ := rfl

/-- An OUT whose operand cannot be read would write no port; any other appends one write. -/
theorem out_ports_cases (pm : Port) (src : Src8) (s : State) :
    (out pm src s).state.ports = s.ports ∨ ∃ w, (out pm src s).state.ports = s.ports ++ [w] :=
  read8_andThen_state (P := fun t => t.ports = s.ports ∨ ∃ w, t.ports = s.ports ++ [w]) src
    (fun record => .inl (s.raise_ports record)) fun _ => .inr ⟨_, rfl⟩

theorem Action.run_ports_cases (x : Action) (s : State) :
    (x.run s).state.ports = s.ports ∨
    (∃ pm src, x = .out pm src) ∧ ∃ w, (x.run s).state.ports = s.ports ++ [w] := by
  cases x with
  | out pm src => exact (out_ports_cases pm src s).imp_right fun hw => ⟨⟨pm, src, rfl⟩, hw⟩
  | _ => exact .inl (Action.run_preserved (ports_preserved (by nofun)) s)

theorem exec_ports_cases (he : exec i s = .next t) :
    t.ports = s.ports ∨ isOut i ∧ ∃ w, t.ports = s.ports ++ [w] := by
  rw [exec_eq_next] at he
  cases he
  rcases (action i).run_ports_cases s with h | ⟨⟨pm, src, hx⟩, hw⟩
  · exact .inl h
  · exact .inr ⟨isOut_of_action hx, hw⟩

/-- A fetch writes no port. -/
theorem fetch_ports (s : State) : (fetch s).state.ports = s.ports :=
  fetch_preserved (ports_preserved (x := .ret) nofun) s

/-- Settles O20: a fetch writes no port, and an instruction appends one write, as an OUT, or none. -/
theorem portWritesAreOnlyAppendedByOut : Obligations.PortWritesAreOnlyAppendedByOut := by
  refine ⟨fun s t hstep => ?_, fun i s t he hout => ?_⟩
  · have hfetch := fetch_ports s
    obtain ⟨-, ⟨i, u, hf, he⟩ | hf⟩ := step_next_cases hstep <;> rw [hf] at hfetch
    · rw [← hfetch]
      exact (exec_ports_cases he).imp_right And.right
    · exact .inl hfetch
  · exact (exec_ports_cases he).resolve_right fun h => hout h.1

end Sys2Proof.Machine
end

section
/-! The Bus window by window, and the fetch through it (20_memory.md R45, R51 to R57). -/

namespace Sys2Proof.Machine

variable {s t : State} {a : Word} {v : Byte}

/-! ## The windows -/

theorem readByte_rom (s : State) (h : a.toNat ≤ 0xBFFF) : s.readByte a = s.cart[a.toNat]? := by
  rw [State.readByte, if_pos (inRom_iff.mpr h)]

theorem inRam_false_of_outside (h : a.toNat ≤ 0xBFFF ∨ 0xE000 ≤ a.toNat) : inRam a = false := by
  rw [← Bool.not_eq_true, inRam_iff]
  omega

theorem readByte_unmapped (s : State) (h : 0xE000 ≤ a.toNat) : s.readByte a = none := by
  have hrom : ¬ inRom a = true := by rw [inRom_iff]; omega
  rw [State.readByte, if_neg hrom, inRam_false_of_outside (.inr h)]
  rfl

/-! ## The record each failing access latches (60_exceptions.md R183) -/

theorem memRead_unreadable (hrun : s.Running) (h : s.readByte a = none) :
    memRead a s = .raised { s with fault := some (.busFault a .read s.pc) } := by
  rw [memRead_none h, State.raise_of_running _ _ hrun]

theorem memWrite_rejected (v : Byte) (hrun : s.Running) (h : inRam a = false) :
    memWrite a v s = .raised { s with fault := some (.busFault a .write s.pc) } := by
  rw [memWrite_outside h, State.raise_of_running _ _ hrun]

theorem next8_unreadable (hrun : s.Running) (h : s.readByte s.pc = none) :
    next8 s = .raised { s with fault := some (.busFault s.pc .read s.pc) } := by
  rw [next8_none h, State.raise_of_running _ _ hrun]

/-- Settles O23: the window is read from the image, and no address of it is in RAM. -/
theorem romWindowIsReadOnlyAndBoundsChecked : Obligations.RomWindowIsReadOnlyAndBoundsChecked := by
  intro s a v hrun ha
  refine ⟨fun h => memRead_some ?_, fun h => memRead_unreadable hrun ?_,
    memWrite_rejected v hrun (inRam_false_of_outside (.inl ha))⟩
  · rw [readByte_rom s ha, List.getElem?_eq_getElem h]
  · rw [readByte_rom s ha, List.getElem?_eq_none h]

theorem storedByte_of_inRam (s : State) (v : Byte) (h : inRam a = true) :
    StoredByte s a v { s with ram := s.ram.set a.toNat v } :=
  ⟨(readByte_store s v a h).trans (if_pos rfl), fun b hb => (readByte_store s v b h).trans (if_neg hb), rfl⟩

/-- Settles O24: reading after a store, an unwritten byte, and the address 0x2000 above, which is unmapped. -/
theorem ramReadsGiveTheLastByteWritten : Obligations.RamReadsGiveTheLastByteWritten := by
  intro s a v hlo hhi
  have hram : inRam a = true := inRam_iff.mpr ⟨hlo, hhi⟩
  have hstored := storedByte_of_inRam s v hram
  obtain ⟨x, hx⟩ := readByte_isSome_of_inRam s hram
  exact ⟨⟨_, memWrite_inRam hram, memRead_some hstored.1, hstored⟩,
    fun hm => memRead_some (readByte_unwritten hram hm), ⟨x, memRead_some hx⟩,
    readByte_unmapped s (by bv_omega)⟩

/-! ## Fetching -/

theorem fetch_of_next8_raised (h : next8 s = .raised t) : fetch s = .raised t := by
  rw [fetch, h]
  rfl

/-- Settles O25: an unmapped address reads as nothing and is not in RAM, and a fetch from it ends at its first
byte. -/
theorem unmappedAccessesRaiseBusFaults : Obligations.UnmappedAccessesRaiseBusFaults := by
  intro s a v hrun ha
  have hread := readByte_unmapped s ha
  refine ⟨memRead_unreadable hrun hread, memWrite_rejected v hrun (inRam_false_of_outside (.inr ha)), ?_⟩
  rintro rfl
  exact step_of_fetch_raised hrun (fetch_of_next8_raised (next8_unreadable hrun hread))

theorem next16_some {lo hi : Byte} (hlo : s.readByte s.pc = some lo) (hhi : s.readByte (s.pc + 1) = some hi) :
    next16 s = .ok (joinBytes hi lo) (s.setPc (s.pc + 2)) :=
  next16_of_codeAt (codeAt_cons.mpr ⟨hlo, codeAt_cons.mpr ⟨hhi, codeAt_nil _⟩⟩)

theorem next16_of_first_raised (h : next8 s = .raised t) : next16 s = .raised t := by
  rw [next16, h]
  rfl

theorem next16_of_second_raised (hlo : s.readByte s.pc = some v) (h : next8 (s.setPc (s.pc + 1)) = .raised t) :
    next16 s = .raised t := by
  simp only [next16, next8_some hlo, Res.andThen, h]

/-- Settles O26: `next16` is two `next8`, and each either moves PC on by one or raises where PC stands. -/
theorem fetchHelpersReadAtPcAndAdvanceIt : Obligations.FetchHelpersReadAtPcAndAdvanceIt := by
  intro s hrun
  exact ⟨fun v h => next8_some h, next8_unreadable hrun, fun lo hi => next16_some,
    fun h => next16_of_first_raised (next8_unreadable hrun h),
    fun lo hlo hhi => next16_of_second_raised hlo (next8_unreadable (s := s.setPc (s.pc + 1)) hrun hhi)⟩

theorem storedByte_of_memWrite (h : memWrite a v s = .ok () t) : StoredByte s a v t := by
  rcases memWrite_cases a v s with ⟨hram, he⟩ | ⟨-, he⟩ <;> rw [he] at h <;> cases h
  exact storedByte_of_inRam s v hram

/-- Settles O27: `next8` reads at PC through the Bus, which answers the byte just stored. -/
theorem nextFetchSeesTheStore : Obligations.NextFetchSeesTheStore := by
  intro s t a v h
  obtain ⟨hread, -, -⟩ := storedByte_of_memWrite h
  exact next8_some (s := { t with pc := a }) hread

end Sys2Proof.Machine
end

section
/-! The decoder and the encoder against each other, through the entry whose bytes they read and write
(30_encoding.md R60, R63, R64, R68, R70). -/

namespace Sys2Proof

variable {i : Instr} {t : Table} {op : Byte} {bytes rest : List Byte}

/-! ## The operands of an entry -/

/-- The bytes are those the entry's descriptors consume, and the instruction is the one they complete it to:
no byte, one, or the two of a word (R63, R64). -/
inductive Entry.Yields : Entry → List Byte → Instr → Prop
  | plain (i : Instr) : Yields (.plain i) [] i
  | imm8 (k : Byte → Instr) (n : Byte) : Yields (.imm8 k) [n] (k n)
  | imm16 (k : Word → Instr) (nn : Word) : Yields (.imm16 k) (wordBytes nn) (k nn)

@[simp] theorem wordBytes_joinBytes (hi lo : Byte) : wordBytes (Machine.joinBytes hi lo) = [lo, hi] := by
  simp [wordBytes]

theorem Entry.Yields.imm16_joinBytes (k : Word → Instr) (lo hi : Byte) :
    (Entry.imm16 k).Yields [lo, hi] (k (Machine.joinBytes hi lo)) :=
  wordBytes_joinBytes hi lo ▸ .imm16 k _

/-- Decoding behind an opcode succeeds exactly on the operands of the entry that stands in the table. -/
theorem decodeEntry_ok_iff {entry : Option Entry} :
    decodeEntry t op entry bytes = .ok (i, rest) ↔
      ∃ e operands, entry = some e ∧ e.Yields operands i ∧ bytes = operands ++ rest := by
  constructor
  · intro h
    match entry, bytes, h with
    | some (.plain _), _, rfl => exact ⟨_, [], rfl, .plain _, rfl⟩
    | some (.imm8 _), _ :: _, rfl => exact ⟨_, [_], rfl, .imm8 _ _, rfl⟩
    | some (.imm16 _), lo :: hi :: _, rfl => exact ⟨_, [lo, hi], rfl, .imm16_joinBytes _ lo hi, rfl⟩
  · rintro ⟨_, _, rfl, _ | _ | _, rfl⟩
    · rfl
    · rfl
    · simp [wordBytes, decodeEntry]

/-- An instruction decodes from the opcode of a row, behind 0xED if the row is extended, and the operands that
the row's entry takes. -/
theorem decode_ok_iff :
    decode bytes = .ok (i, rest) ↔
      (∃ op e operands, op ≠ Config.prefixEd ∧ primaryTable op = some e ∧ e.Yields operands i ∧
        bytes = op :: operands ++ rest) ∨
      (∃ op e operands, extendedTable op = some e ∧ e.Yields operands i ∧
        bytes = Config.prefixEd :: op :: operands ++ rest) := by
  constructor
  · intro h
    rcases decode_cases bytes with rfl | rfl | ⟨op, bs, rfl, hd⟩ | ⟨op, bs, hop, rfl, hd⟩
    · cases h
    · cases h
    · obtain ⟨e, operands, he, hy, rfl⟩ := decodeEntry_ok_iff.mp (hd.symm.trans h)
      exact .inr ⟨op, e, operands, he, hy, rfl⟩
    · obtain ⟨e, operands, he, hy, rfl⟩ := decodeEntry_ok_iff.mp (hd.symm.trans h)
      exact .inl ⟨op, e, operands, hop, he, hy, rfl⟩
  · rintro (⟨op, e, operands, hop, he, hy, rfl⟩ | ⟨op, e, operands, he, hy, rfl⟩)
    · exact (decode_primary hop _).trans (decodeEntry_ok_iff.mpr ⟨e, operands, he, hy, rfl⟩)
    · exact (decode_extended op _).trans (decodeEntry_ok_iff.mpr ⟨e, operands, he, hy, rfl⟩)

/-! ## The rows of the tables -/

theorem lookupRow_append (xs ys : List (Byte × Entry)) (op : Byte) :
    lookupRow (xs ++ ys) op = (lookupRow xs op).or (lookupRow ys op) := by
  induction xs with
  | nil => rfl
  | cons row xs ih =>
    obtain ⟨b, e⟩ := row
    simp only [List.cons_append, lookupRow]
    split
    · rfl
    · exact ih

/-- The primary table, looked up row by row of the map that R70 prints. -/
theorem primaryTable_eq_or (op : Byte) :
    primaryTable op =
      (((((((((((((lookupRow primaryRow0x op).or (lookupRow primaryRow1x op)).or (lookupRow primaryRow2x op)).or
      (lookupRow primaryRow3x op)).or (lookupRow primaryRow4x op)).or (lookupRow primaryRow5x op)).or
      (lookupRow primaryRow6x op)).or (lookupRow primaryRow7x op)).or (lookupRow primaryRowAx op)).or
      (lookupRow primaryRowBx op)).or (lookupRow primaryRowCx op)).or (lookupRow primaryRowDx op)).or
      (lookupRow primaryRowEx op)).or (lookupRow primaryRowFx op) := by
  simp only [primaryTable, primaryRows, lookupRow_append]

/-! ## Every instruction stands in a row -/

/-- The encoding is the opcode of the instruction's own row followed by the operands. -/
theorem decode_encode (i : Instr) (rest : List Byte) : decode (encode i ++ rest) = .ok (i, rest) := by
  rw [decode_ok_iff]
  cases i with
  | ldBcNn nn | ldDeNn nn | ldHlNn nn | ldSpNn nn | ldAtNnA nn | ldAAtNn nn | jpNn nn | callNn nn
  | jpNzNn nn | jpZNn nn | jpNcNn nn | jpCNn nn | jpPoNn nn | jpPeNn nn | jpPNn nn | jpMNn nn
  | callNzNn nn | callZNn nn | callNcNn nn | callCNn nn | callPoNn nn | callPeNn nn | callPNn nn | callMNn nn =>
    exact .inl ⟨_, _, _, by decide, (primaryTable_eq_or _).trans rfl, .imm16 _ nn, rfl⟩
  | ldBN n | ldCN n | ldDN n | ldEN n | ldHN n | ldLN n | ldAN n | ldAtHlN n
  | jrE n | jrNzE n | jrZE n | jrNcE n | jrCE n | xorN n | orN n | cpN n | outAtNA n =>
    exact .inl ⟨_, _, _, by decide, (primaryTable_eq_or _).trans rfl, .imm8 _ n, rfl⟩
  | outAtCB | outAtCC | outAtCD | outAtCE | outAtCH | outAtCL | outAtCA | im0 | im1 | im2 | ldi | ldir =>
    exact .inr ⟨_, _, _, rfl, .plain _, rfl⟩
  | _ => exact .inl ⟨_, _, _, by decide, (primaryTable_eq_or _).trans rfl, .plain _, rfl⟩

/-- Every instruction's table entry is one that the spec allows (R68, R71). -/
theorem instr_wellFormed (i : Instr) : i.WellFormed = true := by cases i <;> rfl

/-- Settles O1: the encoding is the opcode of the instruction's own row followed by the operands it takes. -/
theorem decodeReadsBackEveryEncoding : Obligations.DecodeReadsBackEveryEncoding :=
  fun i rest => ⟨instr_wellFormed i, decode_encode i rest⟩

/-! ## Every row holds what the encoder writes -/

/-- The encoder writes the row's opcode, behind the bytes before it, and the operands of the row's entry. -/
def RowEncodes (before : List Byte) (row : Byte × Entry) : Prop :=
  ∀ operands i, row.2.Yields operands i → encode i = before ++ row.1 :: operands

theorem primaryRows_encode : ∀ row ∈ primaryRows, RowEncodes [] row := by
  rw [← List.forall_iff_forall_mem]
  repeat' apply And.intro
  all_goals
    rintro _ _ ⟨⟩
    rfl

theorem extendedRows_encode : ∀ row ∈ extendedRows, RowEncodes [Config.prefixEd] row := by
  rw [← List.forall_iff_forall_mem]
  repeat' apply And.intro
  all_goals
    rintro _ _ ⟨⟩
    rfl

/-- Settles O2: the row that was found is a row that the encoder follows. -/
theorem decodedBytesAreTheEncoding : Obligations.DecodedBytesAreTheEncoding := by
  intro bytes rest i h
  rcases decode_ok_iff.mp h with ⟨op, e, operands, -, he, hy, rfl⟩ | ⟨op, e, operands, he, hy, rfl⟩
  · rw [lookupRow_of_forall _ _ _ _ primaryRows_encode he _ _ hy, List.nil_append]
  · rw [lookupRow_of_forall _ _ _ _ extendedRows_encode he _ _ hy, List.singleton_append]

end Sys2Proof
end

section
/-! The opcode values that are in neither table (30_encoding.md R67, R70). -/

namespace Sys2Proof.Machine

theorem lookupRow_eq_none_iff (rows : List (Byte × Entry)) (op : Byte) :
    lookupRow rows op = none ↔ op ∉ rows.map Prod.fst := by
  induction rows with
  | nil => simp [lookupRow]
  | cons row rows ih =>
    obtain ⟨b, e⟩ := row
    by_cases hb : b = op
    · simp [lookupRow, hb]
    · simpa [lookupRow, hb, Ne.symm hb] using ih

/-- The opcodes of the primary rows, in order, are the bytes that are neither listed as absent nor 0xED. -/
theorem primaryRows_opcodes : primaryRows.map Prod.fst =
    ((List.range 256).map (BitVec.ofNat 8)).filter fun op => !absentPrimary op && op != Config.prefixEd := by
  decide +kernel

theorem mem_allBytes (op : Byte) : op ∈ (List.range 256).map (BitVec.ofNat 8) :=
  List.mem_map.mpr ⟨op.toNat, List.mem_range.mpr op.isLt, BitVec.ofNat_toNat 8 op⟩

theorem primaryTable_eq_none_iff (op : Byte) :
    primaryTable op = none ↔ absentPrimary op = true ∨ op = Config.prefixEd := by
  rw [primaryTable, lookupRow_eq_none_iff, primaryRows_opcodes, List.mem_filter]
  simp [mem_allBytes, imp_iff_not_or]

theorem extendedTable_eq_none_iff (op : Byte) : extendedTable op = none ↔ op ∉ extendedValues := by
  have hperm : (extendedRows.map Prod.fst).Perm extendedValues := by decide
  rw [extendedTable, lookupRow_eq_none_iff, hperm.mem_iff]

/-- The byte 0xED is not absent: what stands behind it is looked up in the other table, or is missing. -/
theorem decode_prefix_ne_absent_primary (op : Byte) (rest : List Byte) :
    decode (Config.prefixEd :: rest) ≠ .error (.absent .primary op) := by
  cases rest with
  | nil => nofun
  | cons op2 rest => simp [decode_extended, decodeEntry_absent_iff]

/-- Settles O5: a byte is rejected as absent if no row has it, and the rows have all bytes but those listed. -/
theorem exactlyTheListedValuesAreAbsent : Obligations.ExactlyTheListedValuesAreAbsent := by
  refine ⟨fun op rest => ?_, fun op rest => ?_⟩
  · by_cases hop : op = Config.prefixEd
    · subst hop
      exact iff_of_false (decode_prefix_ne_absent_primary _ rest) (by decide)
    · simp [decode_primary hop, decodeEntry_absent_iff, primaryTable_eq_none_iff, hop]
  · have hdec : decode (0xED :: op :: rest) = decodeEntry .extended op (extendedTable op) rest := rfl
    rw [hdec, decodeEntry_absent_iff, extendedTable_eq_none_iff]
    exact and_iff_left ⟨rfl, rfl⟩

end Sys2Proof.Machine
end

section
/-! `step`, which fetches all bytes of an instruction before it runs it, against the spec's pseudocode, in which
each descriptor fetches its own (30_encoding.md R65, R66, R72 to R77). -/

namespace Sys2Proof.Machine

variable {α β γ : Type} {x : Res α} {s t : State}

/-! ## Statements in sequence -/

theorem Res.andThen_assoc (x : Res α) (k : α → State → Res β) (l : β → State → Res γ) :
    (x.andThen k).andThen l = x.andThen fun v t => (k v t).andThen l := by
  cases x <;> rfl

theorem Res.andThen_congr {k l : α → State → Res β} (h : ∀ v t, x = .ok v t → k v t = l v t) :
    x.andThen k = x.andThen l := by
  cases x with
  | ok v t => exact h v t rfl
  | raised t => rfl

/-! ## A register read before the operand bytes is the one read after them -/

theorem next8_reg8 {v : Byte} (h : next8 s = .ok v t) (r : Reg8) : t.reg8 r = s.reg8 r := by
  rcases next8_cases s with ⟨_, -, he⟩ | ⟨-, he⟩ <;> cases he.symm.trans h
  exact s.reg8_setPc _ r

theorem next16_reg8 {v : Word} (h : next16 s = .ok v t) (r : Reg8) : t.reg8 r = s.reg8 r := by
  rcases next16_cases s with ⟨_, _, -, -, he⟩ | ⟨-, he⟩ | ⟨_, -, -, he⟩ <;> cases he.symm.trans h
  exact s.reg8_setPc _ r

/-! ## The rows -/

/-- Running the row's operation, whose descriptors fetch the operand bytes, is fetching the operand bytes and then
running the instruction that they complete. -/
def RowVisits (row : Byte × Entry) : Prop :=
  match row.2 with
  | .plain i => ∀ s, Visit.run i.invocation s = (action i).run s
  | .imm8 k => ∀ s, Visit.run (k 0).invocation s = (next8 s).andThen fun n t => (action (k n)).run t
  | .imm16 k => ∀ s, Visit.run (k 0).invocation s = (next16 s).andThen fun nn t => (action (k nn)).run t

/-- LD A,(nn) reads memory between its fetch and its write of A. -/
theorem rowVisits_ldAAtNn (op : Byte) : RowVisits (op, .imm16 .ldAAtNn) :=
  fun s => Res.andThen_assoc (next16 s) memRead _

/-- LD (nn),A reads A before it fetches the address. -/
theorem rowVisits_ldAtNnA (op : Byte) : RowVisits (op, .imm16 .ldAtNnA) := by
  refine fun s => Res.andThen_congr fun nn t h => ?_
  have ha : t.a = s.a := next16_reg8 h .a
  exact congrArg (memWrite nn · t) ha.symm

/-- OUT (n),A reads A before it fetches the port number. -/
theorem rowVisits_outAtNA (op : Byte) : RowVisits (op, .imm8 .outAtNA) := by
  refine fun s => Res.andThen_congr fun n t h => ?_
  have ha : t.a = s.a := next8_reg8 h .a
  exact congrArg (portWrite n · t) ha.symm

/-- LDIR rewinds PC if BC is not 0, where its meaning leaves PC if BC is 0. -/
theorem rowVisits_ldir (op : Byte) : RowVisits (op, .plain .ldir) := by
  refine fun s => Res.andThen_congr fun _ t _ => ?_
  by_cases hbc : t.pairRead .bc = 0
  · rw [if_neg (not_not_intro hbc), if_pos hbc]
  · rw [if_pos hbc, if_neg hbc]

/-- Every other row's operation does the same as its meaning by definition. -/
theorem primaryRows_visit : ∀ row ∈ primaryRows, RowVisits row := by
  simp only [primaryRows, primaryRow0x, primaryRow1x, primaryRow2x, primaryRow3x, primaryRow4x, primaryRow5x,
    primaryRow6x, primaryRow7x, primaryRowAx, primaryRowBx, primaryRowCx, primaryRowDx, primaryRowEx,
    primaryRowFx, List.forall_mem_append, List.forall_mem_cons, List.not_mem_nil, false_implies, implies_true,
    and_true, rowVisits_ldAAtNn, rowVisits_ldAtNnA, rowVisits_outAtNA, true_and]
  and_intros
  all_goals exact fun _ => rfl

theorem extendedRows_visit : ∀ row ∈ extendedRows, RowVisits row := by
  simp only [extendedRows, List.forall_mem_cons, List.not_mem_nil, false_implies, implies_true, and_true,
    rowVisits_ldir]
  and_intros
  all_goals exact fun _ => rfl

/-! ## From a row to a step -/

/-- Dispatch through a table, all of whose rows agree. -/
theorem dispatch_eq_fetchEntry (tb : Table) (op : Byte) {rows : List (Byte × Entry)}
    (hrows : ∀ row ∈ rows, RowVisits row) (s : State) :
    Visit.dispatch tb op (lookupRow rows op) s =
      (fetchEntry tb op (lookupRow rows op) s).andThen fun i t => (action i).run t := by
  cases he : lookupRow rows op with
  | none => rfl
  | some e =>
    have hrow := lookupRow_of_forall RowVisits rows op e hrows he
    cases e with
    | plain i => exact hrow s
    | imm8 k => rw [fetchEntry, Res.andThen_assoc]; exact hrow s
    | imm16 k => rw [fetchEntry, Res.andThen_assoc]; exact hrow s

theorem visit_eq_fetch (s : State) : Visit.visit s = (fetch s).andThen fun i t => (action i).run t := by
  rw [fetch, Res.andThen_assoc]
  refine Res.andThen_congr fun op t _ => ?_
  split
  · rw [Res.andThen_assoc]
    exact Res.andThen_congr fun op2 u _ => dispatch_eq_fetchEntry .extended op2 extendedRows_visit u
  · exact dispatch_eq_fetchEntry .primary op primaryRows_visit t

/-- Settles O10: the pseudocode is the fetch followed by the operation of the fetched instruction. -/
theorem stepAgreesWithVisit : Obligations.StepAgreesWithVisit := by
  intro s hrun
  rw [visit_eq_fetch]
  cases hf : fetch s with
  | ok i t => exact (step_of_fetch_ok hrun hf).trans (exec_eq_action i t)
  | raised t => exact step_of_fetch_raised hrun hf

end Sys2Proof.Machine
end

section
/-! The encodings by pattern and by byte (30_encoding.md R61, R62, R70), read off the encoder: what it writes
decodes. -/

namespace Sys2Proof.Machine

variable {i : Instr} {op : Byte} {bytes : List Byte}

theorem decode_of_encode (h : encode i = bytes) (rest : List Byte) : decode (bytes ++ rest) = .ok (i, rest) :=
  h ▸ decode_encode i rest

/-- Behind the opcode of an instruction with a word, any two bytes are the low and the high byte of one (R64). -/
theorem decode_of_encode_word {k : Word → Instr} (h : ∀ nn, encode (k nn) = op :: wordBytes nn) (lo hi : Byte)
    (rest : List Byte) : decode (op :: lo :: hi :: rest) = .ok (k (hi ++ lo), rest) :=
  decode_of_encode (bytes := [op, lo, hi]) ((h _).trans (congrArg (op :: ·) (wordBytes_joinBytes hi lo))) rest

theorem encode_jp {cc : Cond} {k : Nat} (hk : condCode cc = some k) (nn : Word) :
    encode (.jp cc nn) = BitVec.ofNat 8 (0xC2 + 8 * k) :: wordBytes nn := by
  cases cc <;> cases hk <;> rfl

theorem encode_call {cc : Cond} {k : Nat} (hk : condCode cc = some k) (nn : Word) :
    encode (.call cc nn) = BitVec.ofNat 8 (0xC4 + 8 * k) :: wordBytes nn := by
  cases cc <;> cases hk <;> rfl

theorem encode_jr {cc : JrCond} {k : Nat} (hk : condCode cc.cond = some k) (e : Byte) :
    encode (.jr cc e) = [BitVec.ofNat 8 (0x20 + 8 * k), e] := by
  cases cc <;> cases hk <;> rfl

/-- Settles O3: in each pattern the encoder writes the codes of the operands into the opcode. -/
theorem regularFieldsSelectTheOperands : Obligations.RegularFieldsSelectTheOperands := by
  intro rest
  refine ⟨fun dst r => decode_of_encode (bytes := [_]) ?ldReg rest,
    fun dst => decode_of_encode (bytes := [_]) ?ldFromHl rest,
    fun r => decode_of_encode (bytes := [_]) ?ldToHl rest,
    fun dst n => decode_of_encode (bytes := [_, n]) ?ldImm rest,
    fun p lo hi => decode_of_encode_word (k := .ldPair p) (fun nn => ?ldPair) lo hi rest,
    fun q => decode_of_encode (bytes := [_]) ?push rest,
    fun q => decode_of_encode (bytes := [_]) ?pop rest,
    fun r => decode_of_encode (bytes := [_]) ?xorS rest,
    fun r => decode_of_encode (bytes := [_]) ?orS rest,
    fun r => decode_of_encode (bytes := [_]) ?cpS rest,
    fun p => decode_of_encode (bytes := [_]) ?addHl rest,
    fun p => decode_of_encode (bytes := [_]) ?incPair rest,
    fun p => decode_of_encode (bytes := [_]) ?decPair rest,
    fun cc k lo hi hk => decode_of_encode_word (k := .jp cc) (encode_jp hk) lo hi rest,
    fun cc k lo hi hk => decode_of_encode_word (k := .call cc) (encode_call hk) lo hi rest,
    fun cc k e hk => decode_of_encode (encode_jr hk e) rest,
    fun r => decode_of_encode (bytes := [0xED, _]) ?outToC rest⟩
  case ldReg => cases dst <;> cases r <;> rfl
  case ldFromHl | ldImm => cases dst <;> rfl
  case ldToHl | xorS | orS | cpS | outToC => cases r <;> rfl
  case push | pop => cases q <;> rfl
  case ldPair | addHl | incPair | decPair => cases p <;> rfl

/-- Settles O4: each is the encoding of its instruction. -/
theorem unvaryingEncodingsDecode : Obligations.UnvaryingEncodingsDecode := by
  intro n lo hi rest
  exact ⟨decode_encode (.ldAtHlN n) rest, decode_encode .ldAAtBc rest, decode_encode .ldAAtDe rest,
    decode_encode .ldAtBcA rest, decode_encode .ldAtDeA rest,
    decode_of_encode_word (fun _ => rfl) lo hi rest, decode_of_encode_word (fun _ => rfl) lo hi rest,
    decode_encode .ldSpHl rest, decode_encode .xorAtHl rest, decode_encode (.xorN n) rest,
    decode_encode .orAtHl rest, decode_encode (.orN n) rest, decode_encode .cpAtHl rest,
    decode_encode (.cpN n) rest, decode_of_encode_word (fun _ => rfl) lo hi rest, decode_encode .jpAtHl rest,
    decode_encode (.jrE n) rest, decode_of_encode_word (fun _ => rfl) lo hi rest, decode_encode .ret rest,
    decode_encode .di rest, decode_encode (.outAtNA n) rest, decode_encode .im0 rest, decode_encode .im1 rest,
    decode_encode .im2 rest, decode_encode .ldi rest, decode_encode .ldir rest⟩

end Sys2Proof.Machine
end

section
/-! The 8-bit loads by the descriptors they join: register or immediate to register, memory to register, and
anything to memory (40_load8.md R80 to R91). -/

namespace Sys2Proof.Machine

variable {i : Instr} {dst : Reg8} {src : Src8} {m : Addr} {s : State} {v : Byte}

/-! ## A register is written -/

theorem withGeneral_setReg8 (s : State) (r : Reg8) (v : Byte) : (s.setReg8 r v).withGeneral s = s := by
  cases r <;> rfl

/-- Settles O29: both forms write one register, with the value that stood in the source before. -/
theorem registerLoadsMoveOneByte : Obligations.RegisterLoadsMoveOneByte := by
  intro dst r n s
  exact ⟨⟨_, exec_ldReg s dst r, s.reg8_setReg8 _ dst, withGeneral_setReg8 s dst _⟩,
    ⟨_, exec_ldImm s dst n, s.reg8_setReg8 n dst, withGeneral_setReg8 s dst n⟩⟩

/-! ## Memory is read -/

theorem action_ldFromHl (dst : Reg8) : action (.ldFromHl dst) = .load8 (.reg dst) (.mem (.ind .hl)) := by
  cases dst <;> rfl

/-- A load from memory is one Bus read, at an address taken before the register is written. -/
theorem exec_load_mem (hi : action i = .load8 (.reg dst) (.mem m)) (s : State) :
    exec i s =
      .next ((memRead (resolveAddr m s) s).andThen fun v s => .ok () (s.setReg8 dst v)).state := by
  rw [exec_eq_next, hi]
  rfl

theorem exec_load_readable (hi : action i = .load8 (.reg dst) (.mem m))
    (h : s.readByte (resolveAddr m s) = some v) : exec i s = .next (s.setReg8 dst v) := by
  rw [exec_load_mem hi, memRead_some h]
  rfl

theorem exec_load_unreadable (hi : action i = .load8 (.reg dst) (.mem m)) (hrun : s.Running)
    (h : s.readByte (resolveAddr m s) = none) :
    exec i s = .next { s with fault := some (.busFault (resolveAddr m s) .read s.pc) } := by
  rw [exec_load_mem hi, memRead_unreadable hrun h]
  rfl

/-- Settles O30: each form is a load from memory, whose Bus read answers the byte or latches the record. -/
theorem memoryLoadsReadOneByte : Obligations.MemoryLoadsReadOneByte := by
  intro dst nn s v
  have hHl := action_ldFromHl dst
  have hBc : action .ldAAtBc = .load8 (.reg .a) (.mem (.ind .bc)) := rfl
  have hDe : action .ldAAtDe = .load8 (.reg .a) (.mem (.ind .de)) := rfl
  have hNn : action (.ldAAtNn nn) = .load8 (.reg .a) (.mem (.direct nn)) := rfl
  exact ⟨fun h => ⟨_, exec_load_readable hHl h, s.reg8_setReg8 v dst, withGeneral_setReg8 s dst v⟩,
    exec_load_readable hBc, exec_load_readable hDe, exec_load_readable hNn,
    exec_load_unreadable hHl, exec_load_unreadable hBc, exec_load_unreadable hDe, exec_load_unreadable hNn⟩

/-! ## Memory is written -/

theorem action_ldToHl (r : Reg8) : action (.ldToHl r) = .load8 (.mem (.ind .hl)) (.reg r) := by
  cases r <;> rfl

/-- A store is one Bus write of the source's byte. -/
theorem exec_store (hi : action i = .load8 (.mem m) src) (hv : read8 src s = .ok v s) :
    exec i s = .next (memWrite (resolveAddr m s) v s).state := by
  rw [exec_eq_next, hi, Action.run, load8, hv]
  rfl

theorem exec_store_inRam (hi : action i = .load8 (.mem m) src) (hv : read8 src s = .ok v s)
    (h : inRam (resolveAddr m s) = true) :
    ∃ t, exec i s = .next t ∧ StoredByte s (resolveAddr m s) v t := by
  rw [exec_store hi hv, memWrite_inRam h]
  exact ⟨_, rfl, storedByte_of_inRam s v h⟩

/-- Settles O31: each form is a store, whose Bus write in RAM puts one byte. -/
theorem storesWriteOneByteOfRam : Obligations.StoresWriteOneByteOfRam := by
  intro r n nn s
  have hBc : action .ldAtBcA = .load8 (.mem (.ind .bc)) (.reg .a) := rfl
  have hDe : action .ldAtDeA = .load8 (.mem (.ind .de)) (.reg .a) := rfl
  have hNn : action (.ldAtNnA nn) = .load8 (.mem (.direct nn)) (.reg .a) := rfl
  have hHlN : action (.ldAtHlN n) = .load8 (.mem (.ind .hl)) (.imm n) := rfl
  exact ⟨exec_store_inRam (action_ldToHl r) rfl, exec_store_inRam hHlN rfl, exec_store_inRam hBc rfl,
    exec_store_inRam hDe rfl, exec_store_inRam hNn rfl⟩

end Sys2Proof.Machine
end

section
/-! The 16-bit loads, and the stack transfers by the word that stands on top of the stack (41_load16_stack.md). -/

namespace Sys2Proof.Machine

variable {s t : State} {lo hi : Byte} {w sp : Word}

/-- LD SP,HL copies the pair HL to SP (41_load16_stack.md R101). -/
theorem exec_ldSpHl (s : State) : exec .ldSpHl s = .next (s.setSp (s.pairRead .hl)) := rfl

/-- Settles O33: both forms are one write of a pair. -/
theorem pairLoadsMoveOneWord : Obligations.PairLoadsMoveOneWord :=
  fun p nn s => ⟨exec_ldPair s p nn, exec_ldSpHl s⟩

/-! ## Pushing -/

theorem hiByte_pairRead (s : State) (q : PairQq) : hiByte (s.pairRead q.reg16) = highOf s q := by
  cases q <;> exact hiByte_joinBytes _ _

theorem loByte_pairRead (s : State) (q : PairQq) : loByte (s.pairRead q.reg16) = lowOf s q := by
  cases q <;> exact loByte_joinBytes _ _

/-- `push16` onto two bytes of RAM, address by address (20_memory.md R46). -/
theorem push16_stores (w : Word) (s : State) (h1 : inRam (s.sp - 1) = true) (h2 : inRam (s.sp - 2) = true) :
    ∃ t, push16 w s = .ok () t ∧ t.sp = s.sp - 2 ∧
      t.readByte (s.sp - 1) = some (hiByte w) ∧ t.readByte (s.sp - 2) = some (loByte w) ∧
      (∀ a, a ≠ s.sp - 1 → a ≠ s.sp - 2 → t.readByte a = s.readByte a) ∧
      { t with sp := s.sp, ram := s.ram } = s := by
  obtain ⟨t, hpush, hsp, hread, hframe⟩ := push16_inRam w s h1 h2
  have hne : s.sp - 1 ≠ s.sp - 2 := by bv_omega
  exact ⟨t, hpush, hsp, by rw [hread, if_neg hne, if_pos rfl], by rw [hread, if_pos rfl],
    fun a ha1 ha2 => by rw [hread, if_neg ha2, if_neg ha1], hframe⟩

theorem exec_push_of_push16 {q : PairQq} (h : push16 (s.pairRead q.reg16) s = .ok () t) :
    exec (.push q) s = .next t := by
  rw [exec_push, h]
  rfl

theorem exec_call_of_push16 {cc : Cond} (target : Word) (hcc : cond cc s = true) (h : push16 s.pc s = .ok () t) :
    exec (.call cc target) s = .next (t.setPc target) := by
  rw [exec_call, callTo, if_pos hcc, h]
  rfl

/-- Settles O34: PUSH is `push16` of the pair, whose halves are the two stored bytes. -/
theorem pushStoresThePairBelowSp : Obligations.PushStoresThePairBelowSp := by
  intro q s h1 h2
  obtain ⟨t, hpush, hstored⟩ := push16_stores (s.pairRead q.reg16) s h1 h2
  rw [hiByte_pairRead, loByte_pairRead] at hstored
  exact ⟨t, exec_push_of_push16 hpush, hstored⟩

/-! ## Popping -/

theorem exec_pop_readable (q : PairQq) (hlo : s.readByte s.sp = some lo) (hhi : s.readByte (s.sp + 1) = some hi) :
    exec (.pop q) s = .next ((s.setSp (s.sp + 2)).pairWrite q.reg16 (joinBytes hi lo)) := by
  rw [exec_pop, pop16_readable hlo hhi]
  rfl

theorem exec_ret_readable (hlo : s.readByte s.sp = some lo) (hhi : s.readByte (s.sp + 1) = some hi) :
    exec .ret s = .next ((s.setSp (s.sp + 2)).setPc (joinBytes hi lo)) := by
  rw [exec_eq_next, action, Action.run, returnFrom, pop16_readable hlo hhi]
  rfl

/-- Settles O35: POP writes the word that `pop16` answers, and AF is a pair like the others. -/
theorem popLoadsThePairAtSp : Obligations.PopLoadsThePairAtSp :=
  fun q _ _ _ hlo hhi => exec_pop_readable q hlo hhi

/-! ## Popping what was pushed -/

/-- The word `w` stands on top of the stack, low byte first, and `sp` is where SP stands without it. -/
structure State.StackTop (t : State) (w sp : Word) : Prop where
  low : t.readByte t.sp = some (loByte w)
  high : t.readByte (t.sp + 1) = some (hiByte w)
  below : t.sp + 2 = sp

theorem State.StackTop.setPc (h : t.StackTop w sp) (v : Word) : (t.setPc v).StackTop w sp :=
  ⟨h.low, h.high, h.below⟩

theorem push16_stackTop (w : Word) (s : State) (h1 : inRam (s.sp - 1) = true) (h2 : inRam (s.sp - 2) = true) :
    ∃ t, push16 w s = .ok () t ∧ t.StackTop w s.sp := by
  obtain ⟨t, hpush, hsp, hhigh, hlow, -, -⟩ := push16_stores w s h1 h2
  have habove : s.sp - 2 + 1 = s.sp - 1 := by bv_omega
  have hback : s.sp - 2 + 2 = s.sp := by bv_omega
  exact ⟨t, hpush, by rw [hsp, hlow], by rw [hsp, habove, hhigh], by rw [hsp, hback]⟩

/-- Whatever put the word there, POP takes it. -/
theorem State.StackTop.exec_pop (h : t.StackTop w sp) (q : PairQq) :
    exec (.pop q) t = .next ((t.setSp sp).pairWrite q.reg16 w) := by
  rw [exec_pop_readable q h.low h.high, joinBytes_hiByte_loByte, h.below]

/-- Whatever put the word there, RET goes to it. -/
theorem State.StackTop.exec_ret (h : t.StackTop w sp) : exec .ret t = .next ((t.setSp sp).setPc w) := by
  rw [exec_ret_readable h.low h.high, joinBytes_hiByte_loByte, h.below]

/-- Settles O28: PUSH and CALL leave a word on top of the stack, and POP and RET take what stands there. -/
theorem pushThenPopReturnsTheValue : Obligations.PushThenPopReturnsTheValue := by
  intro s q q' cc target h1 h2 hcc
  constructor
  · obtain ⟨t, hpush, htop⟩ := push16_stackTop (s.pairRead q.reg16) s h1 h2
    exact ⟨t, exec_push_of_push16 hpush, loByte_pairRead s q ▸ htop.low, hiByte_pairRead s q ▸ htop.high,
      htop.exec_pop q', htop.exec_ret⟩
  · obtain ⟨t, hpush, htop⟩ := push16_stackTop s.pc s h1 h2
    have hcalled := htop.setPc target
    exact ⟨t.setPc target, exec_call_of_push16 target hcc hpush, hcalled.exec_pop q', hcalled.exec_ret⟩

end Sys2Proof.Machine
end

section
/-! Block copy: the byte one LDI moves, and the block an LDIR has moved after some of its steps (42_block.md). -/

namespace Sys2Proof.Machine

variable {s t u : State} {v : Byte} {m n : Nat}

/-! ## One byte -/

/-- The state in which LDI has stored `v`, the byte it read, and stepped the three pairs (42_block.md R110). -/
def State.copied (s : State) (v : Byte) : State :=
  ((State.pairWrite { s with ram := s.ram.set (s.pairRead .de).toNat v } .de (s.pairRead .de + 1)).pairWrite
    .hl (s.pairRead .hl + 1)).pairWrite .bc (s.pairRead .bc - 1)

@[simp] theorem pairRead_de_copied (s : State) (v : Byte) : (s.copied v).pairRead .de = s.pairRead .de + 1 :=
  joinBytes_hiByte_loByte _

@[simp] theorem pairRead_hl_copied (s : State) (v : Byte) : (s.copied v).pairRead .hl = s.pairRead .hl + 1 :=
  joinBytes_hiByte_loByte _

@[simp] theorem pairRead_bc_copied (s : State) (v : Byte) : (s.copied v).pairRead .bc = s.pairRead .bc - 1 :=
  joinBytes_hiByte_loByte _

theorem copied_setPc (s : State) (v : Byte) (w : Word) : (s.setPc w).copied v = (s.copied v).setPc w := rfl

theorem readByte_copied (v : Byte) (h : inRam (s.pairRead .de) = true) :
    (s.copied v).readByte (s.pairRead .de) = some v ∧
    ∀ a, a ≠ s.pairRead .de → (s.copied v).readByte a = s.readByte a := by
  obtain ⟨hself, hothers, -⟩ := storedByte_of_inRam s v h
  exact ⟨hself, hothers⟩

theorem ldiBody_copies (hv : s.readByte (s.pairRead .hl) = some v) (hram : inRam (s.pairRead .de) = true) :
    ldiBody s = .ok () (s.copied v) := by
  simp only [ldiBody, memRead_some hv, Res.andThen, memWrite_inRam hram]
  rfl

theorem ldiBody_unreadable (hrun : s.Running) (h : s.readByte (s.pairRead .hl) = none) :
    ldiBody s = .raised { s with fault := some (.busFault (s.pairRead .hl) .read s.pc) } := by
  rw [ldiBody, memRead_unreadable hrun h]
  rfl

theorem ldiBody_rejected (hrun : s.Running) (hv : (s.readByte (s.pairRead .hl)).isSome = true)
    (h : inRam (s.pairRead .de) = false) :
    ldiBody s = .raised { s with fault := some (.busFault (s.pairRead .de) .write s.pc) } := by
  obtain ⟨v, hv⟩ := Option.isSome_iff_exists.mp hv
  simp only [ldiBody, memRead_some hv, Res.andThen, memWrite_rejected v hrun h]

theorem exec_ldi_of_raised (h : ldiBody s = .raised t) : exec .ldi s = .next t := by
  rw [exec_eq_next, action, Action.run, h]
  rfl

theorem exec_ldi_copies (hv : s.readByte (s.pairRead .hl) = some v) (hram : inRam (s.pairRead .de) = true) :
    exec .ldi s = .next (s.copied v) := by
  rw [exec_eq_next, action, Action.run, ldiBody_copies hv hram]
  rfl

/-- Settles O37: LDI is `ldiBody`, which copies the byte or raises at its read or at its write. -/
theorem ldiCopiesOneByte : Obligations.LdiCopiesOneByte := by
  intro s
  refine ⟨fun v hv hram => ?_, fun hrun h => exec_ldi_of_raised (ldiBody_unreadable hrun h),
    fun hrun hv h => exec_ldi_of_raised (ldiBody_rejected hrun hv h)⟩
  obtain ⟨hself, hothers⟩ := readByte_copied v hram
  exact ⟨_, exec_ldi_copies hv hram, hself, hothers, pairRead_de_copied s v, pairRead_hl_copied s v,
    pairRead_bc_copied s v, rfl⟩

/-! ## One repetition -/

/-- A repetition goes back to its own bytes unless BC was 1, the one value that LDI takes to zero. -/
theorem exec_ldir_copies (hv : s.readByte (s.pairRead .hl) = some v) (hram : inRam (s.pairRead .de) = true) :
    exec .ldir s = .next ((s.copied v).setPc (if s.pairRead .bc = 1 then s.pc else s.pc - 2)) := by
  have hlast : s.pairRead .bc - 1 = 0 ↔ s.pairRead .bc = 1 := sub_eq_zero
  rw [exec_eq_next, action, Action.run, ldirStep, ldiBody_copies hv hram]
  simp only [Res.andThen, Res.state, pairRead_bc_copied, hlast]
  split <;> rfl

theorem exec_ldir_of_raised (h : ldiBody s = .raised t) : exec .ldir s = .next t := by
  rw [exec_eq_next, action, Action.run, ldirStep, h]
  rfl

/-- Settles O38: a repetition is the LDI before it with PC left or set back, and raises where it raises. -/
theorem ldirCopiesOneByteAndRepeats : Obligations.LdirCopiesOneByteAndRepeats := by
  intro s
  refine ⟨fun v hv hram => ?_, fun hrun h => exec_ldir_of_raised (ldiBody_unreadable hrun h),
    fun hrun hv h => exec_ldir_of_raised (ldiBody_rejected hrun hv h)⟩
  obtain ⟨hself, hothers⟩ := readByte_copied v hram
  exact ⟨_, exec_ldir_copies hv hram, hself, hothers, pairRead_de_copied s v, pairRead_hl_copied s v,
    pairRead_bc_copied s v, rfl, rfl⟩

/-- A step at an LDIR ends at its bytes again, or past them after the last repetition (42_block.md R113). -/
theorem step_ldir (hrun : s.Running) (hcode : CodeAt s [0xED, 0xB0])
    (hv : s.readByte (s.pairRead .hl) = some v) (hram : inRam (s.pairRead .de) = true) :
    step s = .next ((s.copied v).setPc (if s.pairRead .bc = 1 then s.pc + 2 else s.pc)) := by
  have hback : s.pc + 2 - 2 = s.pc := by bv_omega
  have hexec := exec_ldir_copies (s := s.setPc (s.pc + 2)) hv hram
  rw [copied_setPc, State.setPc_setPc, State.pairRead_setPc, State.setPc_pc, hback] at hexec
  exact (stepRunsTheDecodedInstruction s [0xED, 0xB0] .ldir hrun hcode rfl).trans hexec

/-! ## Some bytes of a block -/

/-- The state with everything that LDIR may change taken from another. -/
def State.withTransfer (t s : State) : State :=
  { t with b := s.b, c := s.c, d := s.d, e := s.e, h := s.h, l := s.l, ram := s.ram, pc := s.pc }

/-- An LDIR that found `s` has copied `m` bytes of its block and left `t` (42_block.md R113). -/
structure CopiedBlock (s : State) (m : Nat) (t : State) : Prop where
  copied : ∀ k, k < m →
    t.readByte (s.pairRead .de + BitVec.ofNat 16 k) = s.readByte (s.pairRead .hl + BitVec.ofNat 16 k)
  others : ∀ a, (∀ k, k < m → a ≠ s.pairRead .de + BitVec.ofNat 16 k) → t.readByte a = s.readByte a
  de : t.pairRead .de = s.pairRead .de + BitVec.ofNat 16 m
  hl : t.pairRead .hl = s.pairRead .hl + BitVec.ofNat 16 m
  bc : t.pairRead .bc = s.pairRead .bc - BitVec.ofNat 16 m
  frame : t.withTransfer s = s

theorem copiedBlock_zero (s : State) : CopiedBlock s 0 s where
  copied _ hk := absurd hk (Nat.not_lt_zero _)
  others _ _ := rfl
  de := by simp
  hl := by simp
  bc := by simp
  frame := rfl

theorem CopiedBlock.running (h : CopiedBlock s m t) (hrun : s.Running) : t.Running :=
  (congrArg State.fault h.frame).trans hrun

/-- One more byte, the source byte of its place, which no earlier byte of the block has overwritten. The
destination address is a new one: the block is shorter than the address space. -/
theorem CopiedBlock.succ (h : CopiedBlock s m t) (hm : m < 65536) (pc : Word)
    (hv : s.readByte (s.pairRead .hl + BitVec.ofNat 16 m) = some v)
    (hram : inRam (t.pairRead .de) = true) : CopiedBlock s (m + 1) ((t.copied v).setPc pc) := by
  obtain ⟨hself, hothers⟩ := readByte_copied v hram
  rw [h.de] at hself hothers
  have hnew {k : Nat} (hk : k < m) :
      s.pairRead .de + BitVec.ofNat 16 k ≠ s.pairRead .de + BitVec.ofNat 16 m := by
    bv_omega
  refine ⟨fun k hk => ?_, fun a ha => ?_, ?_, ?_, ?_, h.frame⟩
  · rw [State.readByte_setPc]
    rcases Nat.lt_succ_iff_lt_or_eq.mp hk with hk | rfl
    · rw [hothers _ (hnew hk), h.copied k hk]
    · rw [hself, hv]
  · rw [State.readByte_setPc, hothers a (ha m m.lt_succ_self),
      h.others a fun k hk => ha k (Nat.lt_succ_of_lt hk)]
  · rw [State.pairRead_setPc, pairRead_de_copied, h.de]
    bv_omega
  · rw [State.pairRead_setPc, pairRead_hl_copied, h.hl]
    bv_omega
  · rw [State.pairRead_setPc, pairRead_bc_copied, h.bc]
    bv_omega

theorem runs_succ (h : runs n s t) (hstep : step t = .next u) (hu : u.fault = none) : runs (n + 1) s u := by
  induction n generalizing s with
  | zero => cases h; exact ⟨u, hstep, hu, rfl⟩
  | succ n ih =>
    obtain ⟨w, hw, hfault, hrest⟩ := h
    exact ⟨w, hw, hfault, ih hrest⟩

/-! ## A whole block -/

/-- An LDIR at PC that is to copy `n` bytes between two ranges that do not overlap, none of them over its own
two bytes. -/
structure LdirBlock (s : State) (n : Nat) : Prop where
  running : s.Running
  code : CodeAt s [0xED, 0xB0]
  count : (s.pairRead .bc).toNat = n
  source : ∀ k, k < n → (s.readByte (s.pairRead .hl + BitVec.ofNat 16 k)).isSome = true
  target : ∀ k, k < n → inRam (s.pairRead .de + BitVec.ofNat 16 k) = true
  disjoint : ∀ j k, j < n → k < n → s.pairRead .hl + BitVec.ofNat 16 j ≠ s.pairRead .de + BitVec.ofNat 16 k
  kept : ∀ k, k < n →
    s.pc ≠ s.pairRead .de + BitVec.ofNat 16 k ∧ s.pc + 1 ≠ s.pairRead .de + BitVec.ofNat 16 k

/-- Back at its own address, the LDIR still stands there. -/
theorem LdirBlock.codeAt (hs : LdirBlock s n) (hm : m ≤ n) (h : CopiedBlock s m t) (hpc : t.pc = s.pc) :
    CodeAt t [0xED, 0xB0] := by
  have hcode := hs.code
  rw [codeAt_cons, codeAt_cons] at hcode ⊢
  obtain ⟨hfirst, hsecond, -⟩ := hcode
  have hkept (k : Nat) (hk : k < m) := hs.kept k (Nat.lt_of_lt_of_le hk hm)
  rw [hpc]
  exact ⟨(h.others _ fun k hk => (hkept k hk).1).trans hfirst,
    (h.others _ fun k hk => (hkept k hk).2).trans hsecond, codeAt_nil _⟩

/-- The bytes not copied yet are as the LDIR found them: the next step copies one of them. -/
theorem LdirBlock.exists_step (hs : LdirBlock s n) (hm : m < n) (h : CopiedBlock s m t) (hpc : t.pc = s.pc) :
    ∃ u, step t = .next u ∧ CopiedBlock s (m + 1) u ∧ u.pc = if m + 1 = n then s.pc + 2 else s.pc := by
  obtain ⟨v, hv⟩ := Option.isSome_iff_exists.mp (hs.source m hm)
  have hread : t.readByte (t.pairRead .hl) = some v := by
    rw [h.hl, h.others _ fun k hk => hs.disjoint m k hm (hk.trans hm), hv]
  have hram : inRam (t.pairRead .de) = true := by rw [h.de, hs.target m hm]
  have hcount := hs.count
  have hlast : t.pairRead .bc = 1 ↔ m + 1 = n := by
    rw [h.bc]
    bv_omega
  have hlt : m < 65536 := by bv_omega
  refine ⟨_, step_ldir (h.running hs.running) (hs.codeAt hm.le h hpc) hread hram, h.succ hlt _ hv hram, ?_⟩
  simp only [State.setPc_pc, hlast, hpc]

/-- The invariant of an LDIR: it has copied as many bytes as it has made steps, and PC is past it once these are
all of them (42_block.md R112, R113). -/
theorem LdirBlock.exists_runs (hs : LdirBlock s n) (hn : 0 < n) (hm : m ≤ n) :
    ∃ t, runs m s t ∧ CopiedBlock s m t ∧ t.pc = if m = n then s.pc + 2 else s.pc := by
  induction m with
  | zero => exact ⟨s, rfl, copiedBlock_zero s, (if_neg hn.ne).symm⟩
  | succ m ih =>
    obtain ⟨t, hruns, hblock, hpc⟩ := ih (Nat.le_of_succ_le hm)
    rw [if_neg (Nat.ne_of_lt hm)] at hpc
    obtain ⟨u, hstep, hblock', hpc'⟩ := hs.exists_step hm hblock hpc
    exact ⟨u, runs_succ hruns hstep (hblock'.running hs.running), hblock', hpc'⟩

/-- Settles O39: the invariant after the last step. -/
theorem ldirCopiesABlockInOneStepPerByte : Obligations.LdirCopiesABlockInOneStepPerByte := by
  intro s n hrun hcode hcount hn hsource htarget hdisjoint hkept
  have hs : LdirBlock s n := ⟨hrun, hcode, hcount, hsource, htarget, hdisjoint, hkept⟩
  obtain ⟨t, hruns, h, hpc⟩ := hs.exists_runs hn n.le_refl
  have hbc : t.pairRead .bc = 0 := by
    rw [h.bc]
    bv_omega
  exact ⟨t, hruns, hpc.trans (if_pos rfl), hbc, h.de, h.hl, h.copied, h.others, h.frame⟩

end Sys2Proof.Machine
end

section
/-! The flags of a subtraction, by the difference of its operands: unsigned for the borrows, signed for P/V
(43_alu8.md R122, R124). -/

namespace Sys2Proof.Machine

/-! ## The result -/

theorem ofInt_sub (w : Nat) (x y : Int) : BitVec.ofInt w (x - y) = BitVec.ofInt w x - BitVec.ofInt w y := by
  rw [sub_eq_add_neg, BitVec.ofInt_add, BitVec.ofInt_neg, sub_eq_add_neg]

theorem subResult_eq_sub (a b : Byte) (cin : Bool) : subResult a b cin = a - b - BitVec.ofNat 8 cin.toNat := by
  simp [subResult, subDiff, ofInt_sub]

theorem subResult_false (a b : Byte) : subResult a b false = a - b :=
  (subResult_eq_sub a b false).trans (BitVec.sub_zero _)

/-- The result is also the signed difference modulo 256. -/
theorem toInt_subResult (a b : Byte) (cin : Bool) :
    (subResult a b cin).toInt = (a.toInt - b.toInt - cin.toNat).bmod 256 := by
  have hsigned : subResult a b cin = BitVec.ofInt 8 (a.toInt - b.toInt - cin.toNat) := by
    simp [subResult_eq_sub, ofInt_sub]
  rw [hsigned, BitVec.toInt_ofInt]

/-! ## Signed overflow -/

theorem getLsbD_seven_eq_toInt_neg (v : Byte) : v.getLsbD 7 = decide (v.toInt < 0) := by
  rw [← BitVec.msb_eq_toInt, BitVec.msb_eq_getLsbD_last]

/-- The sign comparison of R124 on integers: a difference in range is kept by the reduction modulo 256, and it has
the sign of `x` if `x` and `y` differ in sign; a difference out of range needs such operands, and the reduction
turns its sign. -/
theorem signs_differ_iff_not_in_range {x y c : Int} (hx : -128 ≤ x ∧ x < 128) (hy : -128 ≤ y ∧ y < 128)
    (hc : 0 ≤ c ∧ c ≤ 1) :
    (¬(x < 0 ↔ y < 0) ∧ ¬((x - y - c).bmod 256 < 0 ↔ x < 0)) ↔ x - y - c < -128 ∨ 127 < x - y - c := by
  rw [Int.bmod_def]
  omega

/-- Settles O42: bit 7 is the sign, and the result is the signed difference modulo 256. -/
theorem compareOverflowIsSignedOverflow : Obligations.CompareOverflowIsSignedOverflow := by
  intro a b f cin
  have hrange (v : Byte) : -128 ≤ v.toInt ∧ v.toInt < 128 := ⟨v.le_toInt, v.toInt_lt⟩
  have hc : (0 : Int) ≤ cin.toNat ∧ (cin.toNat : Int) ≤ 1 := ⟨by omega, by exact_mod_cast cin.toNat_le⟩
  rw [flagTest_subcFlags, overflowSub, Bool.eq_iff_iff, decide_eq_true_iff,
    ← signs_differ_iff_not_in_range (hrange a) (hrange b) hc, ← toInt_subResult]
  simp only [getLsbD_seven_eq_toInt_neg, Bool.and_eq_true, bne_iff_ne, ne_eq, decide_eq_decide]

/-! ## The other flags -/

theorem flagTest_s_subcFlags (a b f : Byte) (cin : Bool) :
    flagTest .s (subcFlags a b cin f) = (a - b - BitVec.ofNat 8 cin.toNat).getLsbD 7 := by
  rw [flagTest_subcFlags, subResult_eq_sub]

theorem flagTest_z_subcFlags (a b f : Byte) (cin : Bool) :
    flagTest .z (subcFlags a b cin f) = decide (a - b - BitVec.ofNat 8 cin.toNat = 0) := by
  rw [flagTest_subcFlags, subResult_eq_sub, beq_eq_decide]

/-- H is the borrow out of the low nibble. -/
theorem flagTest_h_subcFlags (a b f : Byte) (cin : Bool) :
    flagTest .h (subcFlags a b cin f) = decide (a.toNat % 16 < b.toNat % 16 + cin.toNat) := by
  rw [flagTest_subcFlags, decide_eq_decide]
  omega

theorem flagTest_pv_subcFlags (a b f : Byte) (cin : Bool) :
    flagTest .pv (subcFlags a b cin f) =
      decide (a.getLsbD 7 ≠ b.getLsbD 7 ∧
        (a - b - BitVec.ofNat 8 cin.toNat).getLsbD 7 ≠ a.getLsbD 7) := by
  rw [flagTest_subcFlags, subResult_eq_sub, overflowSub, Bool.decide_and]
  simp only [bne, beq_eq_decide, ne_eq, decide_not]

/-- C is the unsigned borrow. -/
theorem flagTest_c_subcFlags (a b f : Byte) (cin : Bool) :
    flagTest .c (subcFlags a b cin f) = decide (a.toNat < b.toNat + cin.toNat) := by
  rw [flagTest_subcFlags, subDiff, decide_eq_decide]
  omega

theorem flagTest_n_subcFlags (a b f : Byte) (cin : Bool) : flagTest .n (subcFlags a b cin f) = true :=
  flagTest_subcFlags .n a b cin f

end Sys2Proof.Machine
end

section
/-! XOR, OR and CP by the byte their operand gives, or the read of it that raises (43_alu8.md R120 to R135). -/

namespace Sys2Proof.Machine

variable {src : AluSrc} {s : State} {v : Byte}

/-! ## The operand -/

theorem read8_aluSrc8 (h : aluValue s src = some v) : read8 (aluSrc8 src) s = .ok v s := by
  cases src with
  | reg r => cases h; rfl
  | atHl => exact memRead_some h
  | imm n => cases h; rfl

theorem read8_aluSrc8_unreadable (hrun : s.Running) (h : s.readByte (s.pairRead .hl) = none) :
    read8 (aluSrc8 .atHl) s = .raised { s with fault := some (.busFault (s.pairRead .hl) .read s.pc) } :=
  memRead_unreadable hrun h

theorem exec_logic_readable (op : LogicOp) (h : aluValue s src = some v) :
    exec (.logic op src) s = .next (setLogic op v s) := by
  rw [exec_logic, Action.run, logic8, read8_aluSrc8 h]
  rfl

theorem exec_cpS_readable (h : aluValue s src = some v) : exec (.cpS src) s = .next (setCompare v false s) := by
  rw [exec_cpS, Action.run, compare8, read8_aluSrc8 h]
  rfl

/-- Settles O43: the operand is read before anything is written, and its read raises. -/
theorem unreadableAluOperandLeavesAccumulatorAndFlags :
    Obligations.UnreadableAluOperandLeavesAccumulatorAndFlags := by
  intro op s hrun h
  have hread := read8_aluSrc8_unreadable hrun h
  constructor
  · rw [exec_logic, Action.run, logic8, hread]
    rfl
  · rw [exec_cpS, Action.run, compare8, hread]
    rfl

/-! ## Parity -/

theorem length_filter_range_succ (p : Nat → Bool) (n : Nat) :
    ((List.range (n + 1)).filter p).length = ((List.range n).filter p).length + (p n).toNat := by
  rw [List.range_succ, List.filter_append, List.length_append]
  cases h : p n <;> simp [h]

/-- `popcount` counts the positions of the 1 bits (00_scope.md R5). -/
theorem popcount_eq_length_filter (v : Byte) :
    popcount v = ((List.range 8).filter fun k => v.getLsbD k).length := by
  simp only [length_filter_range_succ, popcount, List.range_zero, List.filter_nil, List.length_nil, Nat.zero_add]

theorem parityEven_eq_decide (v : Byte) :
    parityEven v = decide (((List.range 8).filter fun k => v.getLsbD k).length % 2 = 0) := by
  rw [parityEven, popcount_eq_length_filter, beq_eq_decide]

/-! ## The statements -/

/-- Settles O40: the operand's byte goes through `setLogic`, which writes A and the six flags. -/
theorem logicSetsAccumulatorAndFlags : Obligations.LogicSetsAccumulatorAndFlags := by
  intro op src s v h
  obtain ⟨h5, h3⟩ := logicFlags_unnamed (logicResult op s.a v) s.f
  refine ⟨_, exec_logic_readable op h, ?_, flagTest_logicFlags .s _ _, ?_, flagTest_logicFlags .h _ _, ?_,
    flagTest_logicFlags .n _ _, flagTest_logicFlags .c _ _, h5, h3, rfl⟩
  · cases op <;> rfl
  · exact (flagTest_logicFlags .z _ _).trans (beq_eq_decide ..)
  · exact (flagTest_logicFlags .pv _ _).trans (parityEven_eq_decide _)

/-- Settles O41: the flags one by one, and CP as the write of them all. -/
theorem compareSetsTheFlagsOfTheDifference : Obligations.CompareSetsTheFlagsOfTheDifference := by
  refine ⟨fun a b f cin => ?_, fun src s v h => exec_cpS_readable h⟩
  exact ⟨flagTest_s_subcFlags .., flagTest_z_subcFlags .., flagTest_h_subcFlags .., flagTest_pv_subcFlags ..,
    flagTest_n_subcFlags .., flagTest_c_subcFlags .., subcFlags_unnamed ..⟩

/-! ## The identities of R135 -/

theorem exec_xorA (s : State) : exec .xorA s = .next { s with a := 0, f := logicFlags 0 s.f } := by
  have hset : setLogic .xor s.a s = { s with a := 0, f := logicFlags 0 s.f } := by simp [setLogic, logicResult]
  exact hset ▸ exec_logic_readable (src := .reg .a) .xor rfl

theorem exec_orA (s : State) : exec .orA s = .next { s with f := logicFlags s.a s.f } := by
  have hset : setLogic .or s.a s = { s with f := logicFlags s.a s.f } := by simp [setLogic, logicResult]
  exact hset ▸ exec_logic_readable (src := .reg .a) .or rfl

/-- With no carry-in the result is zero exactly if the operands are equal. -/
theorem flagTest_z_subcFlags_false (a b f : Byte) : flagTest .z (subcFlags a b false f) = decide (a = b) := by
  rw [flagTest_subcFlags, subResult_false, beq_eq_decide, decide_eq_decide, sub_eq_zero]

/-- Subtracting zero leaves the byte, whose sign it keeps, and borrows nothing. -/
theorem flagTest_subcFlags_zero (x : Flag) (a f : Byte) :
    flagTest x (subcFlags a 0 false f) =
      match x with
      | .s => a.getLsbD 7
      | .z => decide (a = 0)
      | .h | .pv | .c => false
      | .n => true := by
  have hres : subResult a 0 false = a := (subResult_false a 0).trans (sub_zero a)
  cases x with
  | s => rw [flagTest_subcFlags, hres]
  | z => exact flagTest_z_subcFlags_false a 0 f
  | h => rw [flagTest_h_subcFlags]; simp
  | pv => rw [flagTest_subcFlags, hres]; simp [overflowSub]
  | n => exact flagTest_n_subcFlags ..
  | c => rw [flagTest_c_subcFlags]; simp

/-- A byte minus itself is zero, without overflow or borrow. -/
theorem flagTest_subcFlags_self (x : Flag) (a f : Byte) :
    flagTest x (subcFlags a a false f) =
      match x with
      | .s | .h | .pv | .c => false
      | .z | .n => true := by
  have hres : subResult a a false = 0 := (subResult_false a a).trans (sub_self a)
  cases x with
  | s => rw [flagTest_subcFlags, hres]; rfl
  | z => rw [flagTest_z_subcFlags_false]; simp
  | h => rw [flagTest_h_subcFlags]; simp
  | pv => rw [flagTest_subcFlags]; simp [overflowSub]
  | n => exact flagTest_n_subcFlags ..
  | c => rw [flagTest_c_subcFlags]; simp

/-- Settles O44: XOR A and OR A set the flags of zero and of A, CP those of a difference whose operands are equal,
or whose subtrahend is zero, or neither. -/
theorem logicAndCompareIdentities : Obligations.LogicAndCompareIdentities := by
  intro s src v
  refine ⟨⟨_, exec_xorA s, rfl, ?_⟩, ⟨_, exec_orA s, rfl, ?_⟩,
    ⟨_, exec_cpS_readable (src := .imm 0) rfl, ?_⟩, fun h => ⟨_, exec_cpS_readable h, rfl, ?_⟩⟩
  · exact ⟨flagTest_logicFlags .z .., flagTest_logicFlags .pv .., flagTest_logicFlags .s ..,
      flagTest_logicFlags .h .., flagTest_logicFlags .n .., flagTest_logicFlags .c ..⟩
  · exact ⟨(flagTest_logicFlags .z ..).trans (beq_eq_decide ..), flagTest_logicFlags .s ..,
      flagTest_logicFlags .pv .., flagTest_logicFlags .h .., flagTest_logicFlags .n .., flagTest_logicFlags .c ..⟩
  · exact ⟨flagTest_subcFlags_zero .c .., flagTest_subcFlags_zero .h .., flagTest_subcFlags_zero .pv ..,
      flagTest_subcFlags_zero .z .., flagTest_subcFlags_zero .s ..⟩
  · refine ⟨flagTest_z_subcFlags_false .., flagTest_c_subcFlags _ v _ false, ?_⟩
    rintro rfl
    exact ⟨flagTest_subcFlags_self .s .., flagTest_subcFlags_self .h .., flagTest_subcFlags_self .pv ..,
      flagTest_subcFlags_self .n ..⟩

end Sys2Proof.Machine
end

section
/-! The 16-bit arithmetic on pairs: ADD HL,ss, and INC and DEC as additions of a constant (44_alu16.md). -/

namespace Sys2Proof.Machine

/-! ## ADD HL,ss -/

theorem exec_addHl_writes (p : PairDd) (s : State) : exec (.addHl p) s =
    .next (State.pairWrite { s with f := add16Flags (s.pairRead .hl) (s.pairRead p.reg16) s.f } .hl
      (s.pairRead .hl + s.pairRead p.reg16)) :=
  exec_addHl s p

/-- Settles O45: the sum goes to HL, and F is what `add16Flags` makes of the old F. -/
theorem addHlSetsSumAndCarries : Obligations.AddHlSetsSumAndCarries := by
  intro p s
  obtain ⟨h5, h3⟩ := add16Flags_unnamed (s.pairRead .hl) (s.pairRead p.reg16) s.f
  exact ⟨_, exec_addHl_writes p s, State.pairRead_pairWrite_self .., flagTest_add16Flags .h ..,
    flagTest_add16Flags .c .., flagTest_add16Flags .n .., flagTest_add16Flags .s .., flagTest_add16Flags .z ..,
    flagTest_add16Flags .pv .., h5, h3, rfl⟩

/-! ## INC ss and DEC ss -/

theorem ofNat_toNat_add (v : Word) (k : Nat) : BitVec.ofNat 16 (v.toNat + k) = v + BitVec.ofNat 16 k := by
  rw [BitVec.ofNat_add, BitVec.ofNat_toNat, BitVec.setWidth_eq]

/-- Modulo 65536, to take one away is to add 65535. -/
theorem sub_one_eq_ofNat (v : Word) : v - 1 = BitVec.ofNat 16 (v.toNat + 65535) := by
  have hneg : -(1 : Word) = BitVec.ofNat 16 65535 := by decide
  rw [ofNat_toNat_add, ← hneg, sub_eq_add_neg]

/-- Settles O46: each form writes one pair, with the word one above or one below the one it reads. -/
theorem incAndDecChangeThePairByOne : Obligations.IncAndDecChangeThePairByOne := by
  intro p s
  rw [← sub_one_eq_ofNat, ofNat_toNat_add]
  exact ⟨exec_incPair s p, exec_decPair s p⟩

end Sys2Proof.Machine
end

section
/-! Control transfer: jumps, relative jumps, calls and the return (45_control.md). -/

namespace Sys2Proof.Machine

variable {s : State} {cc : Cond}

/-- Settles O47: `cond` is defined by the tests of the named flags, whose positions `Flag.bit` fixes. -/
theorem conditionsReadOneFlagBit : Obligations.ConditionsReadOneFlagBit :=
  fun _ => ⟨rfl, rfl, rfl, rfl, rfl, rfl, rfl, rfl, rfl⟩

/-! ## Jumps -/

theorem exec_jp_taken (target : Word) (hcc : cond cc s = true) : exec (.jp cc target) s = .next (s.setPc target) := by
  rw [exec_jp, jump, if_pos hcc]
  rfl

theorem exec_jp_not_taken (target : Word) (hcc : cond cc s = false) : exec (.jp cc target) s = .next s := by
  rw [exec_jp, jump, hcc]
  rfl

/-- JP (HL) goes to HL itself, not to a word in memory (45_control.md R151). -/
theorem exec_jpAtHl (s : State) : exec .jpAtHl s = .next (s.setPc (s.pairRead .hl)) :=
  exec_eq_next .jpAtHl s

/-- Settles O48: the two outcomes of the condition, and JP (HL), whose pair is H above L. -/
theorem jumpsSetPcIffTheConditionHolds : Obligations.JumpsSetPcIffTheConditionHolds :=
  fun _ target s => ⟨exec_jp_taken target, exec_jp_not_taken target, exec_jpAtHl s⟩

/-! ## Relative jumps -/

theorem exec_jr_taken {cc : JrCond} (e : Byte) (hcc : cond cc.cond s = true) :
    exec (.jr cc e) s = .next (s.setPc (s.pc + sext16 e)) := by
  rw [exec_jr, jumpRelative, if_pos hcc]
  rfl

theorem exec_jr_not_taken {cc : JrCond} (e : Byte) (hcc : cond cc.cond s = false) :
    exec (.jr cc e) s = .next s := by
  rw [exec_jr, jumpRelative, hcc]
  rfl

/-- To add the sign-extended byte is to add its signed value, modulo 65536. -/
theorem toNat_add_sext16 (w : Word) (e : Byte) :
    ((w + sext16 e).toNat : Int) = ((w.toNat : Int) + e.toInt) % 65536 := by
  rw [sext16, BitVec.signExtend, BitVec.toNat_add, BitVec.toNat_ofInt]
  omega

/-- Settles O49: the target is PC plus the sign-extended displacement. -/
theorem relativeJumpsAddTheSignedDisplacement : Obligations.RelativeJumpsAddTheSignedDisplacement :=
  fun _ e s => ⟨fun hcc => ⟨s.pc + sext16 e, exec_jr_taken e hcc, toNat_add_sext16 s.pc e⟩, exec_jr_not_taken e⟩

/-! ## Call and return -/

theorem exec_call_not_taken (target : Word) (hcc : cond cc s = false) : exec (.call cc target) s = .next s := by
  rw [exec_call, callTo, hcc]
  rfl

/-- Settles O50: a taken CALL is `push16` of PC followed by the write of PC, which no read of memory sees. -/
theorem callsPushTheReturnAddress : Obligations.CallsPushTheReturnAddress := by
  intro cc target s
  refine ⟨fun hcc h1 h2 => ?_, exec_call_not_taken target⟩
  obtain ⟨t, hpush, hsp, hhigh, hlow, hmem, hframe⟩ := push16_stores s.pc s h1 h2
  have hjoin : hiByte s.pc ++ loByte s.pc = s.pc := joinBytes_hiByte_loByte s.pc
  have hrest : State.setPc { t with sp := s.sp, ram := s.ram } s.pc = s := congrArg (·.setPc s.pc) hframe
  exact ⟨t.setPc target, exec_call_of_push16 target hcc hpush, rfl, hsp, ⟨_, _, hlow, hhigh, hjoin⟩, hmem, hrest⟩

/-- Settles O51: RET writes to PC the word that `pop16` answers. -/
theorem returnPopsPc : Obligations.ReturnPopsPc :=
  fun _ _ _ hlo hhi => exec_ret_readable hlo hhi

end Sys2Proof.Machine
end

section
/-! Interrupt control and port output (46_system_io.md). -/

namespace Sys2Proof.Machine

/-! ## Interrupt control -/

theorem exec_di (s : State) : exec .di s = .next { s with iff1 := false, iff2 := false } :=
  exec_eq_next .di s

theorem exec_im (m : IntMode) (s : State) : exec (.im m) s = .next { s with im := m } := by
  cases m <;> exact exec_eq_next _ s

/-- Settles O52: DI and IM each write their own fields to the state they get. -/
theorem interruptControlWritesOnlyItsOwnState : Obligations.InterruptControlWritesOnlyItsOwnState :=
  fun m s => ⟨exec_di s, exec_im m s⟩

/-! ## Port output -/

theorem exec_outAtNA (n : Byte) (s : State) : exec (.outAtNA n) s =
    .next { s with ports := s.ports ++ [⟨n, s.a⟩] } :=
  exec_eq_next (.outAtNA n) s

/-- The console picks the writes to `DIAG_PORT` out one by one, so it grows by the new one or not at all. -/
theorem console_append_port (s : State) (p v : Byte) :
    State.console { s with ports := s.ports ++ [⟨p, v⟩] } =
      s.console ++ if p = Config.diagPort then [v] else [] := by
  unfold State.console
  rw [List.filter_append, List.map_append]
  by_cases hp : p = Config.diagPort
  · simp [hp]
  · simp [hp]

/-- Settles O53: both forms are one `portWrite`, of A to the immediate port or of a register to the port in C. -/
theorem outAppendsOnePortWrite : Obligations.OutAppendsOnePortWrite :=
  fun n r s => ⟨exec_outAtNA n s, exec_outToC s r, console_append_port s⟩

end Sys2Proof.Machine
end

section
/-! Which operations write SP (10_state.md, table of section 1). -/

namespace Sys2Proof.Machine

variable {i : Instr} {p : Reg16} {cc : Cond} {m : Addr}

/-! ## The instructions behind the operations that write SP -/

theorem eq_push_of_action (h : action i = .push p) : ∃ q, i = .push q := by
  cases i <;> cases h
  exacts [⟨.bc, rfl⟩, ⟨.de, rfl⟩, ⟨.hl, rfl⟩, ⟨.af, rfl⟩]

theorem eq_pop_of_action (h : action i = .pop p) : ∃ q, i = .pop q := by
  cases i <;> cases h
  exacts [⟨.bc, rfl⟩, ⟨.de, rfl⟩, ⟨.hl, rfl⟩, ⟨.af, rfl⟩]

theorem eq_call_of_action (h : action i = .call cc m) : ∃ nn, i = .call cc nn := by
  cases i <;> cases h <;> exact ⟨_, rfl⟩

theorem eq_ret_of_action (h : action i = .ret) : i = .ret := by
  cases i <;> first | rfl | cases h

theorem writesSp_of_stack (h : (action i).stack = true) : writesSp i := by
  cases hx : action i with
  | push p => exact .inr (.inr (.inr (.inr (.inl (eq_push_of_action hx)))))
  | pop p => exact .inr (.inr (.inr (.inr (.inr (.inl (eq_pop_of_action hx))))))
  | call cc m => exact .inr (.inr (.inr (.inr (.inr (.inr (.inl ⟨cc, eq_call_of_action hx⟩))))))
  | ret => exact .inr (.inr (.inr (.inr (.inr (.inr (.inr (eq_ret_of_action hx)))))))
  | _ => rw [hx] at h; cases h

/-- The pair accessor reaches SP in LD SP, INC SP and DEC SP alone. -/
theorem writesSp_of_mem_pairs (h : .sp ∈ (action i).pairs) : writesSp i := by
  cases i with
  | ldSpNn nn => exact .inl ⟨nn, rfl⟩
  | ldSpHl => exact .inr (.inl rfl)
  | incSp => exact .inr (.inr (.inl rfl))
  | decSp => exact .inr (.inr (.inr (.inl rfl)))
  | _ => exact absurd h (by simp [action, Action.pairs])

/-! ## The frame of SP -/

theorem sp_preserved (hi : ¬ writesSp i) : Preserved (fun s t => t.sp = s.sp) (action i) where
  refl _ := rfl
  trans _ _ _ hst htu := htu.trans hst
  setPc _ _ := rfl
  raise s k := s.raise_sp k
  setSp hstack := absurd (writesSp_of_stack hstack) hi
  setReg8 r _ _ s v := s.setReg8_sp v r
  pairWrite p hp s v := s.pairWrite_sp_of_ne v p fun hsp => hi (writesSp_of_mem_pairs (hsp ▸ hp))
  logic _ _ _ _ _ := rfl
  compare _ _ _ _ := rfl
  sum _ _ _ _ _ := rfl
  store _ _ _ _ _ := rfl
  port _ _ _ _ _ := rfl
  disable _ _ := rfl
  mode _ _ _ := rfl

/-- Settles O18: SP is reached by the stack helpers and by the write of the pair SP, and only the listed
instructions use them. -/
theorem onlyTheStackInstructionsChangeSp : Obligations.OnlyTheStackInstructionsChangeSp :=
  fun _ _ _ he hi => exec_preserved (sp_preserved hi) he

end Sys2Proof.Machine
end

section
/-! Data accesses that raise: stores outside RAM, and stack transfers at the access that fails
(60_exceptions.md R184, 70_reset_and_hazards.md R204, R211). -/

namespace Sys2Proof.Machine

variable {i : Instr} {m : Addr} {src : Src8} {s t : State} {v lo : Byte} {q : PairQq} {cc : Cond}

/-! ## Stores -/

theorem exec_store_rejected (hi : action i = .load8 (.mem m) src) (hv : read8 src s = .ok v s) (hrun : s.Running)
    (h : inRam (resolveAddr m s) = false) :
    exec i s = .next { s with fault := some (.busFault (resolveAddr m s) .write s.pc) } := by
  rw [exec_store hi hv, memWrite_rejected v hrun h]
  rfl

/-- Settles O32: each form is a store, whose one Bus write is rejected. -/
theorem storesOutsideRamRaiseBusFaults : Obligations.StoresOutsideRamRaiseBusFaults := by
  intro r n nn s hrun
  have hBc : action .ldAtBcA = .load8 (.mem (.ind .bc)) (.reg .a) := rfl
  have hDe : action .ldAtDeA = .load8 (.mem (.ind .de)) (.reg .a) := rfl
  have hNn : action (.ldAtNnA nn) = .load8 (.mem (.direct nn)) (.reg .a) := rfl
  have hHlN : action (.ldAtHlN n) = .load8 (.mem (.ind .hl)) (.imm n) := rfl
  exact ⟨exec_store_rejected (action_ldToHl r) rfl hrun, exec_store_rejected hHlN rfl hrun,
    exec_store_rejected hBc rfl hrun, exec_store_rejected hDe rfl hrun, exec_store_rejected hNn rfl hrun⟩

/-! ## The stack helpers -/

theorem push16_first_rejected (w : Word) (hrun : s.Running) (h : inRam (s.sp - 1) = false) :
    push16 w s = .raised { s with sp := s.sp - 1, fault := some (.busFault (s.sp - 1) .write s.pc) } := by
  have hwrite := memWrite_rejected (s := s.setSp (s.sp - 1)) (hiByte w) hrun h
  simp only [push16, State.setSp_sp, hwrite, Res.andThen]
  rfl

/-- The high byte is stored before the write of the low one raises. -/
theorem push16_second_rejected (w : Word) (hrun : s.Running) (h1 : inRam (s.sp - 1) = true)
    (h2 : inRam (s.sp - 2) = false) :
    ∃ t, push16 w s = .raised { t with sp := s.sp - 2, fault := some (.busFault (s.sp - 2) .write s.pc) } ∧
      StoredByte s (s.sp - 1) (hiByte w) t := by
  have h12 : s.sp - 2 = s.sp - 1 - 1 := by bv_omega
  rw [h12] at h2 ⊢
  refine ⟨_, ?_, storedByte_of_inRam s (hiByte w) h1⟩
  simp only [push16, State.setSp, memWrite_inRam h1, Res.andThen]
  exact memWrite_rejected _ hrun h2

theorem pop16_first_unreadable (hrun : s.Running) (h : s.readByte s.sp = none) :
    pop16 s = .raised { s with fault := some (.busFault s.sp .read s.pc) } := by
  rw [pop16, memRead_unreadable hrun h]
  rfl

theorem pop16_second_unreadable (hrun : s.Running) (hlo : s.readByte s.sp = some lo)
    (h : s.readByte (s.sp + 1) = none) :
    pop16 s = .raised { s with sp := s.sp + 1, fault := some (.busFault (s.sp + 1) .read s.pc) } := by
  have hread := memRead_unreadable (s := s.setSp (s.sp + 1)) hrun h
  simp only [pop16, memRead_some hlo, State.setSp_sp, hread, Res.andThen]
  rfl

/-! ## The transfers, each of which raises where its helper does -/

theorem exec_push_of_raised (h : push16 (s.pairRead q.reg16) s = .raised t) : exec (.push q) s = .next t := by
  rw [exec_push, h]
  rfl

theorem exec_call_of_raised (target : Word) (hcc : cond cc s = true) (h : push16 s.pc s = .raised t) :
    exec (.call cc target) s = .next t := by
  rw [exec_call, callTo, if_pos hcc, h]
  rfl

theorem exec_pop_of_raised (q : PairQq) (h : pop16 s = .raised t) : exec (.pop q) s = .next t := by
  rw [exec_pop, h]
  rfl

theorem exec_ret_of_raised (h : pop16 s = .raised t) : exec .ret s = .next t := by
  rw [exec_eq_next, action, Action.run, returnFrom, h]
  rfl

/-- Settles O36: PUSH and CALL write nothing behind `push16`, POP and RET only if `pop16` answers a word. -/
theorem faultingStackTransfersKeepPartialEffects : Obligations.FaultingStackTransfersKeepPartialEffects := by
  intro q cc target s hrun hcc
  refine ⟨fun h1 => ?_, fun h1 h2 => ?_, fun h => ?_, fun hlo h => ?_⟩
  · exact ⟨exec_push_of_raised (push16_first_rejected _ hrun h1),
      exec_call_of_raised target hcc (push16_first_rejected _ hrun h1)⟩
  · obtain ⟨t, hpush, hstored⟩ := push16_second_rejected (s.pairRead q.reg16) hrun h1 h2
    obtain ⟨u, hcall, hcalled⟩ := push16_second_rejected s.pc hrun h1 h2
    rw [hiByte_pairRead] at hstored
    exact ⟨⟨t, exec_push_of_raised hpush, hstored⟩, ⟨u, exec_call_of_raised target hcc hcall, hcalled⟩⟩
  · have hpop := pop16_first_unreadable hrun h
    exact ⟨exec_pop_of_raised q hpop, exec_ret_of_raised hpop⟩
  · obtain ⟨lo, hlo⟩ := Option.isSome_iff_exists.mp hlo
    have hpop := pop16_second_unreadable hrun hlo h
    exact ⟨exec_pop_of_raised q hpop, exec_ret_of_raised hpop⟩

/-- Settles O55: below the reset SP stands 0xFFFF, which is not in RAM, so the first store of `push16` raises. -/
theorem firstPushWithResetSpFaults : Obligations.FirstPushWithResetSpFaults := by
  intro s q cc target hrun hsp
  have htop : s.sp - 1 = 0xFFFF := by rw [hsp]; rfl
  have hout : inRam (s.sp - 1) = false := by rw [htop]; rfl
  rw [← htop]
  exact ⟨exec_push_of_raised (push16_first_rejected _ hrun hout),
    fun hcc => exec_call_of_raised target hcc (push16_first_rejected _ hrun hout)⟩

end Sys2Proof.Machine
end

section
/-! Steps that end in their fetch, and the latch that stops the machine (60_exceptions.md R180, R183, R184). -/

namespace Sys2Proof.Machine

variable {s u : State} {op : Byte} {bytes : List Byte}

/-! ## The fetch up to the table entry -/

theorem fetch_primary (hcode : CodeAt s (op :: bytes)) (hop : op ≠ Config.prefixEd) :
    fetch s = fetchEntry .primary op (primaryTable op) (s.setPc (s.pc + 1)) := by
  simp only [fetch, next8_of_codeAt hcode, Res.andThen, hop, if_false]

theorem fetch_extended (hcode : CodeAt s (Config.prefixEd :: op :: bytes)) :
    fetch s = fetchEntry .extended op (extendedTable op) (s.past 2) := by
  have htail := (codeAt_cons.mp hcode).2
  simp only [fetch, next8_of_codeAt hcode, Res.andThen, if_true, next8_of_codeAt htail, past_succ, past_zero]

/-! ## Absent opcodes -/

theorem fetchEntry_absent (t : Table) (op : Byte) (hrun : s.Running) :
    fetchEntry t op none s = .raised { s with fault := some (.decodeFault t op s.pc) } := by
  rw [fetchEntry, State.raise_of_running _ _ hrun]

theorem step_of_absent_primary (hrun : s.Running) (hcode : CodeAt s [op]) (hop : op ≠ Config.prefixEd)
    (h : primaryTable op = none) :
    step s = .next { s with pc := s.pc + 1, fault := some (.decodeFault .primary op (s.pc + 1)) } := by
  have habsent := fetchEntry_absent (s := s.setPc (s.pc + 1)) .primary op hrun
  exact step_of_fetch_raised hrun (by rw [fetch_primary hcode hop, h, habsent]; rfl)

theorem step_of_absent_extended (hrun : s.Running) (hcode : CodeAt s [Config.prefixEd, op])
    (h : extendedTable op = none) :
    step s = .next { s with pc := s.pc + 2, fault := some (.decodeFault .extended op (s.pc + 2)) } := by
  have habsent := fetchEntry_absent (s := s.past 2) .extended op hrun
  exact step_of_fetch_raised hrun (by rw [fetch_extended hcode, h, habsent]; rfl)

/-- Settles O7: an absent value has no row in its table, and the fetch of no row raises the decode fault. -/
theorem absentOpcodeLatchesADecodeFault : Obligations.AbsentOpcodeLatchesADecodeFault := by
  intro s op hrun
  refine ⟨fun hcode habs => ?_, fun hcode hext => ?_⟩
  · have hop : op ≠ Config.prefixEd := by rintro rfl; cases habs
    exact step_of_absent_primary hrun hcode hop ((primaryTable_eq_none_iff op).mpr (.inl habs))
  · exact step_of_absent_extended hrun hcode ((extendedTable_eq_none_iff op).mpr hext)

/-! ## Bytes that cannot be read -/

/-- Where the decoder wants another immediate byte, the fetch of the entry reads it, and raises as that read
does. -/
theorem fetchEntry_of_truncated {t : Table} {e : Option Entry} (hcode : CodeAt s bytes)
    (hdec : decodeEntry t op e bytes = .error .truncated) (hnext : next8 (s.past bytes.length) = .raised u) :
    fetchEntry t op e s = .raised u := by
  match e, bytes, hdec with
  | some (.imm8 _), [], rfl =>
    rw [List.length_nil, past_zero] at hnext
    rw [fetchEntry, hnext]
    rfl
  | some (.imm16 _), [], rfl =>
    rw [List.length_nil, past_zero] at hnext
    rw [fetchEntry, next16_of_first_raised hnext]
    rfl
  | some (.imm16 _), [lo], rfl =>
    rw [fetchEntry, next16_of_second_raised (codeAt_cons.mp hcode).1 hnext]
    rfl

/-- Where the decoder wants another byte, the fetch reads it, and raises as that read does. -/
theorem fetch_of_truncated (hcode : CodeAt s bytes) (hdec : decode bytes = .error .truncated)
    (hnext : next8 (s.past bytes.length) = .raised u) : fetch s = .raised u := by
  rcases decode_cases bytes with rfl | rfl | ⟨op, bs, rfl, hd⟩ | ⟨op, bs, hop, rfl, hd⟩
  · rw [List.length_nil, past_zero] at hnext
    exact fetch_of_next8_raised hnext
  · rw [List.length_singleton, past_succ, past_zero] at hnext
    simp only [fetch, next8_of_codeAt hcode, Res.andThen, if_true, hnext]
  · rw [List.length_cons, List.length_cons, past_succ, past_succ] at hnext
    rw [fetch_extended hcode, past_succ, past_succ, past_zero]
    exact fetchEntry_of_truncated (codeAt_cons.mp (codeAt_cons.mp hcode).2).2 (hd.symm.trans hdec) hnext
  · rw [List.length_cons, past_succ] at hnext
    rw [fetch_primary hcode hop]
    exact fetchEntry_of_truncated (codeAt_cons.mp hcode).2 (hd.symm.trans hdec) hnext

/-- Settles O8: the fetch goes on to the byte the decoder still wants, whose read raises with PC there. -/
theorem unreadableInstructionByteLatchesABusFault : Obligations.UnreadableInstructionByteLatchesABusFault := by
  intro s bytes hrun hcode hdec hend
  have hnext := next8_unreadable (s := s.past bytes.length) hrun hend
  exact step_of_fetch_raised hrun (fetch_of_truncated hcode hdec hnext)

/-! ## The latch -/

/-- Settles O9: past the latch a step ends in its fetch or runs an instruction, and both answer a next state. -/
theorem onlyALatchedFaultStopsTheMachine : Obligations.OnlyALatchedFaultStopsTheMachine := by
  refine ⟨fun s record h => step_of_faulted record h, fun s hrun => ?_⟩
  cases hf : fetch s with
  | ok i t => exact ⟨_, (step_of_fetch_ok hrun hf).trans (exec_eq_next i t)⟩
  | raised t => exact ⟨t, step_of_fetch_raised hrun hf⟩

end Sys2Proof.Machine
end

section
/-! The state that reset leaves (70_reset_and_hazards.md R200 to R202). -/

namespace Sys2Proof.Machine

theorem ready_reset : State.reset.Ready := ⟨rfl, Memory.wf_reset⟩

theorem ready_resetWith (values s : State) : (State.resetWith values s).Ready := ⟨rfl, Memory.wf_nil⟩

/-- Settles O12: whatever the reset values, no record is latched and no byte of RAM is listed. -/
theorem resetEstablishesTheInvariant : Obligations.ResetEstablishesTheInvariant :=
  ⟨ready_reset.inv, fun values s => (ready_resetWith values s).inv⟩

/-- Settles O54: RAM lists no byte after reset, so each of its bytes is an unwritten one. -/
theorem resetZeroesTheCore : Obligations.ResetZeroesTheCore :=
  fun _ _ => ⟨rfl, rfl, rfl, fun h => readByte_unwritten h rfl, by decide⟩

end Sys2Proof.Machine
end
